-- ==== Sys2Proof/Word.lean ====
section
/-! DEFINITION. The widths of the block's values (00 R9, R11; 30 R80). All values are unsigned. -/

namespace Sys2Proof

/-- A register's contents, or one data byte (00 R9: register width 8). -/
abbrev Byte := BitVec 8

/-- The 32-bit transaction word (30 R80), and the serializer's identifier word (41 R160). -/
abbrev Word := BitVec 32

/-- An identifier or a mask: 11 bits (00 R9, ID_W). -/
abbrev Ident := BitVec 11

/-- A data length, held in 4 bits (10 R22). -/
abbrev DataLength := BitVec 4

/-- A data index: 3 bits, wraps modulo 8 (00 R9, INDEX_W). -/
abbrev DataIndex := BitVec 3

/-- Eight data bytes (00 R9, DATA_MAX). -/
abbrev Payload := Vector Byte 8

/-- A mailbox number, 0 to 5 (00 R9, N_MOB). -/
abbrev MobId := Fin 6

/-- Eight zero bytes: the side operand of a transaction that carries none. -/
def Payload.zero : Payload := Vector.replicate 8 0#8

end Sys2Proof
end

