-- ==== Sys2Proof/Config.lean ====
section
/-! DEFINITION. What a launch fixes (00 R10) and the block's one free value (00 R12, `draw8`). -/

namespace Sys2Proof

/-- HOST_BYTE_ORDER: the byte order of the serializer's identifier word (41 R160). -/
inductive ByteOrder where
  | little
  | big
  deriving DecidableEq, Repr

/-- TXBSY_CLEAR: when `txbsy` is cleared (41 R151). -/
inductive TxbsyClear where
  | never
  | onDrain
  deriving DecidableEq, Repr

/-- The data-space byte addresses of the seven registers (20 R51): A_PAGE to A_IDM2. -/
structure RegMap where
  page  : Nat
  cdmob : Nat
  msg   : Nat
  idt1  : Nat
  idt2  : Nat
  idm1  : Nat
  idm2  : Nat
  deriving DecidableEq, Repr

/-- The open parameters of 00 R10: fixed by the launch, changed by no transaction. -/
structure Params where
  regs          : RegMap
  aincActiveLow : Bool
  txqDepth      : Nat
  txbsyClear    : TxbsyClear
  bridgePresent : Bool
  resetTrigger  : Option Nat
  hostByteOrder : ByteOrder
  deriving DecidableEq, Repr

/-- The seven addresses as a list. -/
def RegMap.list (r : RegMap) : List Nat :=
  [r.page, r.cdmob, r.msg, r.idt1, r.idt2, r.idm1, r.idm2]

/-- The AT90CAN addresses that 20 R51 gives for orientation. PRESUMED (log 3): the spec gives no
address, and no rule depends on one. -/
def RegMap.at90can : RegMap :=
  { page := 0xED, cdmob := 0xEF, msg := 0xFA, idt1 := 0xF3, idt2 := 0xF2, idm1 := 0xF7, idm2 := 0xF6 }

/-- The launch `State.reset` stands for: the defaults of 00 R10, and, for the parameters with no
default, the launch that spec/95_test_vectors.md assumes. DESIGN CHOICE (log 2) for the latter. -/
def Params.default : Params :=
  { regs := RegMap.at90can, aincActiveLow := true, txqDepth := 1, txbsyClear := .never,
    bridgePresent := true, resetTrigger := none, hostByteOrder := .little }

/-- `draw8()` (00 R12): the n-th unspecified byte. It has no body, so a claim holds whatever it is
(log 5). -/
opaque Config.draw8 : Nat → Byte

end Sys2Proof
end

