-- ==== Sys2Proof/Syntax.lean ====
section
/-! DEFINITION. The operations of the block's interface, one constructor per row of the opcode table
(30 R90), and the reasons a transaction word is none of them (30 R85). -/

namespace Sys2Proof

/-- RES of a TXPOP: the host's report of the write of the frame it takes (41 R149). RES = 3 is
reserved (30 R85) and has no value here. -/
inductive WriteResult where
  | ok
  | short
  | error
  deriving DecidableEq, Repr

/-- The 22 operations of 30 R90. `v` is the written byte; `x` and `l` are the fields X and L of a
configuration write whose MODE field picks the constructor (30 R71, R75). -/
inductive Instr where
  | wrPage (v : Byte)
  | wrCdmobDis (x : BitVec 2) (l : DataLength)
  | wrCdmobTx (x : BitVec 2) (l : DataLength)
  | wrCdmobRx (x : BitVec 2) (l : DataLength)
  | wrCdmobRxb (x : BitVec 2) (l : DataLength)
  | wrMsg (v : Byte)
  | wrIdt1 (v : Byte)
  | wrIdt2 (v : Byte)
  | wrIdm1 (v : Byte)
  | wrIdm2 (v : Byte)
  | wrResetReg (v : Byte)
  | rdPage
  | rdCdmob
  | rdMsg
  | rdIdt1
  | rdIdt2
  | rdIdm1
  | rdIdm2
  | hostSend (m : Byte)
  | hostReceive (id : Ident) (l : DataLength) (d : Payload)
  | hostTxpop (res : WriteResult) (m : Byte)
  | reset
  deriving DecidableEq, Repr

/-- Why a transaction word is refused (30 R84, R85, R90). -/
inductive DecodeError where
  /-- KIND 4 to 15. -/
  | reservedKind
  /-- A SEL value that 30 R81 to R83 mark reserved. -/
  | reservedSel
  /-- A nonzero bit that 30 R81 to R83 require to be zero. -/
  | nonzeroBits
  /-- RECEIVE with L = 9 to 15. -/
  | reservedLength
  /-- TXPOP with RES = 3. -/
  | reservedResult
  /-- The WR.RESETREG row with RESET_TRIGGER_ADDR unset (30 R90). -/
  | absentRow
  deriving DecidableEq, Repr

end Sys2Proof
end

