-- ==== Sys2Proof/WellFormed.lean ====
section
/-! DEFINITION. Which instruction terms are transactions of the block (30 R85), and which parameters
a launch may have (00 R10). -/

namespace Sys2Proof

/-- An instruction term is a transaction of the block: a RECEIVE carries a length of 0 to 8
(30 R82, R85). Every other field may have any value: values such as a mailbox number of 6 are
well-formed and raise a fault (30 R86). -/
def Instr.wf : Instr → Bool
  | .hostReceive _ l _ => decide (l.toNat ≤ 8)
  | .wrPage _ | .wrCdmobDis _ _ | .wrCdmobTx _ _ | .wrCdmobRx _ _ | .wrCdmobRxb _ _ | .wrMsg _
  | .wrIdt1 _ | .wrIdt2 _ | .wrIdm1 _ | .wrIdm2 _ | .wrResetReg _ | .rdPage | .rdCdmob | .rdMsg
  | .rdIdt1 | .rdIdt2 | .rdIdm1 | .rdIdm2 | .hostSend _ | .hostTxpop _ _ | .reset => true

/-- The operation has a row under these parameters: WR.RESETREG exists only when
RESET_TRIGGER_ADDR is set (30 R90, 70 R211). -/
def Instr.hasRow (p : Params) : Instr → Bool
  | .wrResetReg _ => p.resetTrigger.isSome
  | .wrPage _ | .wrCdmobDis _ _ | .wrCdmobTx _ _ | .wrCdmobRx _ _ | .wrCdmobRxb _ _ | .wrMsg _
  | .wrIdt1 _ | .wrIdt2 _ | .wrIdm1 _ | .wrIdm2 _ | .rdPage | .rdCdmob | .rdMsg
  | .rdIdt1 | .rdIdt2 | .rdIdm1 | .rdIdm2 | .hostSend _ | .hostReceive _ _ _ | .hostTxpop _ _
  | .reset => true

/-- The parameters 00 R10 allows: the seven addresses are pairwise distinct, the reset-trigger
address differs from all of them, and the queue holds at least one frame. -/
def Params.wf (p : Params) : Bool :=
  decide (p.regs.list.Nodup) && p.resetTrigger.all (fun a => !p.regs.list.contains a) &&
    decide (1 ≤ p.txqDepth)

end Sys2Proof
end

