-- ==== Sys2Proof/Decode.lean ====
section
/-! DEFINITION. The transaction word T (30 R80 to R85, R90): the decoder, then the encoder, both
written from the tables of spec/30_encoding.md, and the opcode map itself as data. -/

namespace Sys2Proof

/-- T[31:28], the field KIND (30 R80). -/
def wordKind (t : Word) : BitVec 4 := t.extractLsb' 28 4

/-- T[27:24], the field SEL (30 R80). -/
def wordSel (t : Word) : BitVec 4 := t.extractLsb' 24 4

/-- T[23:8], which every operation with an 8-bit operand requires to be zero (30 R81, R82). -/
def wordHigh (t : Word) : BitVec 16 := t.extractLsb' 8 16

/-- T[7:0], the written byte V or the mailbox index M (30 R81, R82). -/
def wordByte (t : Word) : Byte := t.extractLsb' 0 8

/-- T[14:11], the length of a RECEIVE (30 R82). -/
def wordLength (t : Word) : DataLength := t.extractLsb' 11 4

/-- T[10:0], the identifier of a RECEIVE (30 R82). -/
def wordIdent (t : Word) : Ident := t.extractLsb' 0 11

/-- T[9:8], the RES of a TXPOP (30 R82). -/
def wordRes (t : Word) : BitVec 2 := t.extractLsb' 8 2

/-- A configuration write, by its MODE field V[7:6] (30 R71, R75). -/
def decodeConfig (v : Byte) : Instr :=
  let x := v.extractLsb' 4 2
  let l := v.extractLsb' 0 4
  match (v.extractLsb' 6 2).toNat with
  | 0 => .wrCdmobDis x l
  | 1 => .wrCdmobTx x l
  | 2 => .wrCdmobRx x l
  | _ => .wrCdmobRxb x l

/-- A program write of byte v to the register SEL names (30 R81). -/
def decodeWrite (resetRow : Bool) (sel : Nat) (v : Byte) : Except DecodeError Instr :=
  match sel with
  | 0 => .ok (.wrPage v)
  | 1 => .ok (decodeConfig v)
  | 2 => .ok (.wrMsg v)
  | 3 => .ok (.wrIdt1 v)
  | 4 => .ok (.wrIdt2 v)
  | 5 => .ok (.wrIdm1 v)
  | 6 => .ok (.wrIdm2 v)
  | 7 => if resetRow then .ok (.wrResetReg v) else .error .absentRow
  | _ => .error .reservedSel

/-- A program read of the register SEL names (30 R81). -/
def decodeRead (sel : Nat) : Except DecodeError Instr :=
  match sel with
  | 0 => .ok .rdPage
  | 1 => .ok .rdCdmob
  | 2 => .ok .rdMsg
  | 3 => .ok .rdIdt1
  | 4 => .ok .rdIdt2
  | 5 => .ok .rdIdm1
  | 6 => .ok .rdIdm2
  | _ => .error .reservedSel

/-- The RES field of a TXPOP: 0 ok, 1 short, 2 error, 3 reserved (30 R82). -/
def decodeResult (r : BitVec 2) : Option WriteResult :=
  match r.toNat with
  | 0 => some .ok
  | 1 => some .short
  | 2 => some .error
  | _ => none

/-- A host request (30 R82, R85). -/
def decodeHost (t : Word) (d : Payload) : Except DecodeError Instr :=
  match (wordSel t).toNat with
  | 0 => if wordHigh t = 0 then .ok (.hostSend (wordByte t)) else .error .nonzeroBits
  | 1 =>
    if t.extractLsb' 15 9 = 0 then
      if (wordLength t).toNat ≤ 8 then .ok (.hostReceive (wordIdent t) (wordLength t) d)
      else .error .reservedLength
    else .error .nonzeroBits
  | 2 =>
    if t.extractLsb' 10 14 = 0 then
      match decodeResult (wordRes t) with
      | some r => .ok (.hostTxpop r (wordByte t))
      | none => .error .reservedResult
    else .error .nonzeroBits
  | _ => .error .reservedSel

/-- A device reset (30 R83). -/
def decodeReset (t : Word) : Except DecodeError Instr :=
  match (wordSel t).toNat with
  | 0 => if t.extractLsb' 0 24 = 0 then .ok .reset else .error .nonzeroBits
  | _ => .error .reservedSel

/-- The operation of the transaction word t with the side operand d, or why it is none
(30 R80 to R85). `resetRow` says that RESET_TRIGGER_ADDR is set (30 R90). The side operand is read
by a RECEIVE only. -/
def decode (resetRow : Bool) (t : Word) (d : Payload) : Except DecodeError Instr :=
  match (wordKind t).toNat with
  | 0 => if wordHigh t = 0 then decodeWrite resetRow (wordSel t).toNat (wordByte t)
         else .error .nonzeroBits
  | 1 => if t.extractLsb' 0 24 = 0 then decodeRead (wordSel t).toNat else .error .nonzeroBits
  | 2 => decodeHost t d
  | 3 => decodeReset t
  | _ => .error .reservedKind

/-- The RES code of a TXPOP (30 R82). -/
def encodeResult : WriteResult → BitVec 2
  | .ok => 0
  | .short => 1
  | .error => 2

/-- A program write: KIND 0, SEL, T[23:8] = 0, V (30 R81). -/
def writeWord (sel : BitVec 4) (v : Byte) : Word := 0#4 ++ sel ++ 0#16 ++ v

/-- A program read: KIND 1, SEL, T[23:0] = 0 (30 R81). -/
def readWord (sel : BitVec 4) : Word := 1#4 ++ sel ++ 0#24

/-- A configuration write of the byte with the fields MODE, X and L (30 R71). -/
def configWord (mode : BitVec 2) (x : BitVec 2) (l : DataLength) : Word :=
  writeWord 1 (mode ++ x ++ l)

/-- The transaction word of an instruction, from the tables of 30 R81 to R83. -/
def encodeWord : Instr → Word
  | .wrPage v => writeWord 0 v
  | .wrCdmobDis x l => configWord 0 x l
  | .wrCdmobTx x l => configWord 1 x l
  | .wrCdmobRx x l => configWord 2 x l
  | .wrCdmobRxb x l => configWord 3 x l
  | .wrMsg v => writeWord 2 v
  | .wrIdt1 v => writeWord 3 v
  | .wrIdt2 v => writeWord 4 v
  | .wrIdm1 v => writeWord 5 v
  | .wrIdm2 v => writeWord 6 v
  | .wrResetReg v => writeWord 7 v
  | .rdPage => readWord 0
  | .rdCdmob => readWord 1
  | .rdMsg => readWord 2
  | .rdIdt1 => readWord 3
  | .rdIdt2 => readWord 4
  | .rdIdm1 => readWord 5
  | .rdIdm2 => readWord 6
  | .hostSend m => 2#4 ++ 0#4 ++ 0#16 ++ m
  | .hostReceive id l _ => 2#4 ++ 1#4 ++ 0#9 ++ l ++ id
  | .hostTxpop res m => 2#4 ++ 2#4 ++ 0#14 ++ encodeResult res ++ m
  | .reset => 3#4 ++ 0#4 ++ 0#24

/-- The side operand of an instruction: the frame data of a RECEIVE, and zeros for every other
operation, which carries none (30 R80). -/
def encodeSide : Instr → Payload
  | .hostReceive _ _ d => d
  | .wrPage _ | .wrCdmobDis _ _ | .wrCdmobTx _ _ | .wrCdmobRx _ _ | .wrCdmobRxb _ _ | .wrMsg _
  | .wrIdt1 _ | .wrIdt2 _ | .wrIdm1 _ | .wrIdm2 _ | .wrResetReg _ | .rdPage | .rdCdmob | .rdMsg
  | .rdIdt1 | .rdIdt2 | .rdIdm1 | .rdIdm2 | .hostSend _ | .hostTxpop _ _ | .reset => Payload.zero

/-- The transaction word and the side operand of an instruction (30 R80). -/
def encode (i : Instr) : Word × Payload := (encodeWord i, encodeSide i)

/-- The opcode map of 30 R90: each row's match value and mask, in the table's order. -/
def opcodeRows : List (Word × Word) :=
  [(0x00000000, 0xFFFFFF00), (0x01000000, 0xFFFFFFC0), (0x01000040, 0xFFFFFFC0),
   (0x01000080, 0xFFFFFFC0), (0x010000C0, 0xFFFFFFC0), (0x02000000, 0xFFFFFF00),
   (0x03000000, 0xFFFFFF00), (0x04000000, 0xFFFFFF00), (0x05000000, 0xFFFFFF00),
   (0x06000000, 0xFFFFFF00), (0x07000000, 0xFFFFFF00)] ++
  [(0x10000000, 0xFFFFFFFF), (0x11000000, 0xFFFFFFFF), (0x12000000, 0xFFFFFFFF),
   (0x13000000, 0xFFFFFFFF), (0x14000000, 0xFFFFFFFF), (0x15000000, 0xFFFFFFFF),
   (0x16000000, 0xFFFFFFFF), (0x20000000, 0xFFFFFF00), (0x21000000, 0xFFFF8000),
   (0x22000000, 0xFFFFFC00), (0x30000000, 0xFFFFFFFF)]

/-- The word t matches the row r under the row's mask (30 R84). -/
def rowMatches (t : Word) (r : Word × Word) : Bool := t &&& r.2 == r.1

/-- The number of an instruction's row in the opcode map, counted from 0. -/
def Instr.rowNumber : Instr → Nat
  | .wrPage _ => 0
  | .wrCdmobDis _ _ => 1
  | .wrCdmobTx _ _ => 2
  | .wrCdmobRx _ _ => 3
  | .wrCdmobRxb _ _ => 4
  | .wrMsg _ => 5
  | .wrIdt1 _ => 6
  | .wrIdt2 _ => 7
  | .wrIdm1 _ => 8
  | .wrIdm2 _ => 9
  | .wrResetReg _ => 10
  | .rdPage => 11
  | .rdCdmob => 12
  | .rdMsg => 13
  | .rdIdt1 => 14
  | .rdIdt2 => 15
  | .rdIdm1 => 16
  | .rdIdm2 => 17
  | .hostSend _ => 18
  | .hostReceive _ _ _ => 19
  | .hostTxpop _ _ => 20
  | .reset => 21

/-- The instruction this decoder reads from a table row's word: `w` is the word T with the bits
above `nbits` zero, the side operand is eight zero bytes, and the WR.RESETREG row is present. -/
def decodeTableWord (nbits w : Nat) : Option Instr :=
  if nbits ≤ 32 then
    match decode true (BitVec.ofNat 32 (w % 2 ^ nbits)) Payload.zero with
    | .ok i => some i
    | .error _ => none
  else none

end Sys2Proof
end

