-- ==== Sys2Proof/Machine/State.lean ====
section
/-! DEFINITION. Every piece of state the spec gives the block (spec/10_state.md), the requests its
agents have pending, the power-on state, and the reasons a step can stop. -/

namespace Sys2Proof.Machine

/-- The four modes of a mailbox (10 R24): Disabled, TransmitEnabled, ReceiveEnabled,
ReceiveBufferEnabled. -/
inductive Mode where
  | dis
  | tx
  | rx
  | rxb
  deriving DecidableEq, Repr

/-- A message object (10 R22). `dlc` is 0 to 8, held in 4 bits (10 R41). -/
structure Mailbox where
  id   : Ident
  mask : Ident
  data : Payload
  dlc  : DataLength
  idx  : DataIndex
  mode : Mode
  deriving DecidableEq, Repr

/-- A WireFrame (10 R37). Bytes at or beyond `dlc` are carried but are no valid payload. -/
structure WireFrame where
  id   : Ident
  dlc  : DataLength
  data : Payload
  deriving DecidableEq, Repr

/-- An entry of the transmit queue (10 R38). -/
structure TxEntry where
  m     : MobId
  frame : WireFrame
  deriving DecidableEq, Repr

/-- The step of the bridge startup that failed (41 R155). -/
inductive InitStep where
  | openEndpoint
  | resolveInterface
  | bindEndpoint
  deriving DecidableEq, Repr

/-- A fault reason with the info it records (60 R180). -/
inductive FaultReason where
  /-- FAULT_MOB_INDEX: the offending index. -/
  | mobIndex (index : Byte)
  /-- FAULT_MODE: the mode value. Nothing raises it (60 R183). -/
  | unknownMode (value : BitVec 2)
  /-- FAULT_BRIDGE_INIT: the failed step. A launch fault (60 R184). -/
  | bridgeInit (step : InitStep)
  /-- FAULT_HOST_WRITE: the mailbox index M. -/
  | hostWrite (m : Byte)
  /-- FAULT_DLC: the written byte V. -/
  | dlc (v : Byte)
  deriving DecidableEq, Repr

/-- An event of the history (60 R189). -/
inductive Event where
  | transmit (m : MobId)
  | mailboxSwitch (m : MobId)
  | txQueued (m : MobId) (f : WireFrame)
  | txDropped (m : MobId) (f : WireFrame)
  | txWritten (m : MobId) (f : WireFrame)
  | txShortWrite (m : MobId) (f : WireFrame)
  | rxMatched (m : MobId) (f : WireFrame)
  | rxNoMatch (f : WireFrame)
  | rxDropped (bytes : List Byte)
  | deviceReset
  | fault (r : FaultReason)
  deriving DecidableEq, Repr

/-- The response of a RECEIVE: the matched index or NOMATCH (30 R82). -/
inductive RxResult where
  | matched (m : MobId)
  | noMatch
  deriving DecidableEq, Repr

/-- The agents that issue the block's transactions (60 R194): the program, the bridge's inbound
loop, the bridge's transmit consumer, the device reset source. -/
inductive Agent where
  | prog
  | hrx
  | htx
  | rst
  deriving DecidableEq, Repr

/-- What an agent presents at the block's interface. -/
inductive Request where
  /-- An operation as its transaction word and side operand (30 R80). -/
  | word (t : Word) (d : Payload)
  /-- A program's `MemWrite(addr, 1, v)` (20 R50). -/
  | busWrite (addr : Nat) (v : Byte)
  /-- A program's `MemRead(addr, 1)` (20 R50). -/
  | busRead (addr : Nat)
  /-- The bytes the bridge's inbound loop read from its endpoint (41 R162). -/
  | hostRead (bytes : List Byte)
  deriving DecidableEq, Repr

/-- Each agent's requests the block has not taken yet, oldest first (20 R61). -/
structure Inbox where
  prog : List Request
  hrx  : List Request
  htx  : List Request
  rst  : List Request
  deriving DecidableEq, Repr

/-- The state of the block (10 R22 to R40), with the launch parameters, the responses given, and
the model's own fields `draws`, `inbox` and `turns` (log 1, 5, 6, 10). -/
structure State where
  /-- The launch parameters (00 R10). -/
  cfg       : Params
  /-- The bank of six message objects (10 R23). -/
  mob       : Vector Mailbox 6
  /-- The current mailbox (10 R26). -/
  cur       : MobId
  /-- R[PAGE] (10 R29). -/
  page      : Byte
  /-- R[CDMOB] (10 R30). -/
  cdmob     : Byte
  /-- R[IDT1] (10 R32). -/
  idt1      : Byte
  /-- R[IDT2] (10 R32). -/
  idt2      : Byte
  /-- R[IDM1] (10 R33). -/
  idm1      : Byte
  /-- R[IDM2] (10 R33). -/
  idm2      : Byte
  /-- The transmit-busy flag (10 R35), driven on TX_BUSY. -/
  txbsy     : Bool
  /-- The transmit queue, oldest first (10 R38). -/
  txq       : List TxEntry
  /-- The fault register (10 R39). -/
  fault     : Option FaultReason
  /-- The event history, oldest first (10 R40). -/
  hist      : List Event
  /-- The byte last returned to the program (30 R80). -/
  progByte  : Option Byte
  /-- The frame the last TXPOP returned, which the host writes (30 R82, 41 R149, R150). -/
  takenFrame : Option WireFrame
  /-- The frame the last SEND returned (30 R82, 41 R141). -/
  lookupFrame : Option WireFrame
  /-- The result last returned to the bridge's inbound loop (30 R82). -/
  hrxResult : Option RxResult
  /-- How many unspecified bytes have been drawn (00 R12): the model's own counter. -/
  draws     : Nat
  /-- The agents' pending requests (20 R61): the model's own field. -/
  inbox     : Inbox
  /-- The agents in the order in which they move (20 R61): the model's own field. -/
  turns     : List Agent
  deriving DecidableEq, Repr

/-- Why a step ends with a fault. -/
inductive Fault where
  /-- A transaction is presented, or a step asked for, while `fault` holds this reason: no
  transaction of any agent has a step (60 R185). Raised by every meaning and by `step`. Safe: the
  machine stops where the spec says it is quiescent for good. -/
  | halted (r : FaultReason)
  deriving DecidableEq, Repr

/-- Why a step is refused. -/
inductive Refusal where
  /-- An instruction with no meaning yet. Raised by no arm of `exec`. Safe. -/
  | notModelled (mnemonic : String)
  /-- The word is no transaction of the block (30 R84, R85). Raised by `step`. Safe: the spec gives
  it no step. -/
  | notATransaction (e : DecodeError)
  /-- The agent does not issue this kind of transaction (60 R193, R194). Raised by `step`. Safe: the
  spec excludes it. -/
  | wrongAgent
  /-- A host request without a bridge (41 R140, R152). Raised by the meanings of HOST.SEND,
  HOST.RECEIVE, HOST.TXPOP and by a dropped frame. Safe: the spec says none occurs. -/
  | noBridge
  /-- A RECEIVE term with a length of 9 to 15 (30 R85). Raised by its meaning; no word decodes to
  one. Safe: the spec refuses it. -/
  | reservedLength
  /-- A WR.RESETREG term with RESET_TRIGGER_ADDR unset (30 R90). Raised by its meaning; no word
  decodes to one then. Safe: the row does not exist. -/
  | noResetTrigger
  deriving DecidableEq, Repr

/-- A message object at power-on (10 R43). -/
def Mailbox.powerOn : Mailbox :=
  { id := 0, mask := 0, data := Payload.zero, dlc := 0, idx := 0, mode := .dis }

/-- Inboxes with nothing pending. -/
def Inbox.empty : Inbox := { prog := [], hrx := [], htx := [], rst := [] }

/-- The state at power-on of a launch with the parameters p, whose bridge startup failed at a step
or did not fail (10 R43, 60 R184). The zero state is the spec's default reading (log 4). -/
def State.powerOn (p : Params) (startup : Option InitStep) : State :=
  { cfg := p
    mob := Vector.replicate 6 Mailbox.powerOn
    cur := 0
    page := if p.aincActiveLow then 0x00#8 else 0x08#8
    cdmob := 0, idt1 := 0, idt2 := 0, idm1 := 0, idm2 := 0
    txbsy := false
    txq := []
    fault := if p.bridgePresent then startup.map FaultReason.bridgeInit else none
    hist := []
    progByte := none, takenFrame := none, lookupFrame := none, hrxResult := none
    draws := 0
    inbox := Inbox.empty
    turns := [] }

/-- The state the machine starts in: power-on (70 R212) of the default launch (log 2, 3), its bridge
started. The transaction RESET (70 R210) is another thing and no power-on. -/
def State.reset : State := State.powerOn Params.default none

end Sys2Proof.Machine
end

