-- ==== Sys2Proof/Machine/Operands.lean ====
section
/-! DEFINITION. The fields of the registers and of the written bytes (10 R29, R30; 30 R70, R71), the
mode codes (10 R24), and the packing of identifiers and masks (00 R13). -/

namespace Sys2Proof.Machine

/-- `recon` (00 R13): the high byte, then bits 7:5 of the low byte. -/
def recon (hi lo : Byte) : Ident := hi ++ lo.extractLsb' 5 3

/-- `split_hi` (00 R13): bits 10:3. -/
def splitHi (v : Ident) : Byte := v.extractLsb' 3 8

/-- `split_lo` (00 R13): bits 2:0 above five zero bits. -/
def splitLo (v : Ident) : Byte := v.extractLsb' 0 3 ++ 0#5

/-- The 2-bit code of a mode (10 R24). -/
def Mode.code : Mode → BitVec 2
  | .dis => 0
  | .tx => 1
  | .rx => 2
  | .rxb => 3

/-- The mode of a 2-bit code: every value has one (30 R75). -/
def Mode.ofCode (c : BitVec 2) : Mode :=
  match c.toNat with
  | 0 => .dis
  | 1 => .tx
  | 2 => .rx
  | _ => .rxb

/-- Bit 7 of PAGE, PSPARE; S of a written byte (10 R29, 30 R70). -/
def pageSpare (v : Byte) : BitVec 1 := v.extractLsb' 7 1

/-- Bits 6:4 of PAGE, MOBNB; N of a written byte (10 R29, 30 R70). -/
def pageMobnb (v : Byte) : BitVec 3 := v.extractLsb' 4 3

/-- Bit 3 of PAGE, AINC; A of a written byte (10 R29, 30 R70). -/
def pageAinc (v : Byte) : BitVec 1 := v.extractLsb' 3 1

/-- Bits 2:0 of PAGE, INDX (10 R29). -/
def pageIndx (v : Byte) : DataIndex := v.extractLsb' 0 3

/-- The PAGE byte with the four fields given (10 R29). -/
def pageByte (s : BitVec 1) (n : BitVec 3) (a : BitVec 1) (i : DataIndex) : Byte :=
  s ++ n ++ a ++ i

/-- `R[PAGE][2:0] <- i`, the other bits kept. -/
def setIndx (v : Byte) (i : DataIndex) : Byte :=
  pageByte (pageSpare v) (pageMobnb v) (pageAinc v) i

/-- `R[PAGE][3] <- a`, the other bits kept. -/
def setAinc (v : Byte) (a : BitVec 1) : Byte :=
  pageByte (pageSpare v) (pageMobnb v) a (pageIndx v)

/-- Bits 7:6 of CDMOB, CONMOB; MODE of a written byte (10 R30, 30 R71). -/
def cdmobMode (v : Byte) : BitVec 2 := v.extractLsb' 6 2

/-- Bits 5:4 of CDMOB, CSPARE; X of a written byte (10 R30, 30 R71). -/
def cdmobSpare (v : Byte) : BitVec 2 := v.extractLsb' 4 2

/-- Bits 3:0 of CDMOB, DLC; L of a written byte (10 R30, 30 R71). -/
def cdmobDlc (v : Byte) : DataLength := v.extractLsb' 0 4

/-- The CDMOB byte with the three fields given (10 R30). -/
def cdmobByte (mode : BitVec 2) (x : BitVec 2) (l : DataLength) : Byte := mode ++ x ++ l

/-- The mailbox a 3-bit or 8-bit index names, when it is 0 to 5 (10 R23). -/
def mobOf (n : Nat) : Option MobId := if h : n < 6 then some ⟨n, h⟩ else none

/-- The six mailboxes in index order (41 R142). -/
def allMobs : List MobId := [0, 1, 2, 3, 4, 5]

end Sys2Proof.Machine
end

