-- ==== Sys2Proof/Machine/Flags.lean ====
section
/-! DEFINITION. The block's two flags (10 R34 to R36), the derived enable predicate (10 R25) and the
numeric codes of the fault reasons (60 R180). -/

namespace Sys2Proof.Machine

/-- AINC_ON: the value of PAGE bit 3 that makes `ainc_en` hold (30 R89, 10 R34). -/
def aincOn (p : Params) : BitVec 1 := if p.aincActiveLow then 0 else 1

/-- `ainc_en` (10 R34): derived from PAGE bit 3, with no storage of its own. -/
def State.aincEn (s : State) : Bool := pageAinc s.page == aincOn s.cfg

/-- The output signal TX_BUSY, driven by `txbsy` (10 R35). -/
def State.txBusyPin (s : State) : Bool := s.txbsy

/-- `txbsy` after a TXPOP has left the queue q: cleared only under on_drain and an empty queue
(41 R151). -/
def txbsyAfterPop (c : TxbsyClear) (q : List TxEntry) (busy : Bool) : Bool :=
  match c with
  | .never => busy
  | .onDrain => if q.isEmpty then false else busy

/-- The numeric code of a fault reason (60 R180). -/
def FaultReason.code : FaultReason → Nat
  | .mobIndex _ => 1
  | .unknownMode _ => 2
  | .bridgeInit _ => 3
  | .hostWrite _ => 4
  | .dlc _ => 5

/-- `enabled(m)` (10 R25): derived from the mode. -/
def Mailbox.enabled (o : Mailbox) : Bool := o.mode != .dis

end Sys2Proof.Machine
end

