-- ==== Sys2Proof/Machine/Ops.lean ====
section
/-! DEFINITION. The named operations the meanings share: events, raising a fault, the checks that
come before a transaction's effects, and the effects named in spec/40_register_ops.md,
spec/41_host_ops.md and spec/70_reset_and_hazards.md. -/

namespace Sys2Proof.Machine

/-- The outcome of a transaction. -/
abbrev Result := Host.Outcome State Fault Refusal

/-- `emit E(p)` (00 R12): appends to the event history. -/
def State.emit (s : State) (e : Event) : State := { s with hist := s.hist ++ [e] }

/-- The state a raised fault leaves (60 R185): `fault` set, the event emitted, nothing else. -/
def State.faulted (s : State) (r : FaultReason) : State :=
  { s with fault := some r, hist := s.hist ++ [.fault r] }

/-- `raise Fault(reason)` (60 R185): the fault is recorded, and nothing else of the transaction
happens. The block's one exception mechanism (60 R191); there is no return from it (60 R192). -/
def State.raise (s : State) (r : FaultReason) : Result := .next (s.faulted r)

/-- The first check of every transaction (60 R195): while `fault` is set there is no step. -/
def State.whenLive (s : State) (k : Result) : Result :=
  match s.fault with
  | some r => .fault (.halted r)
  | none => k

/-- A host request: no step in a faulted state, and none occurs without a bridge (41 R140). -/
def State.hostRequest (s : State) (k : Result) : Result :=
  s.whenLive (if s.cfg.bridgePresent then k else .refused .noBridge)

/-- `mob[m]`. -/
def State.mailbox (s : State) (m : MobId) : Mailbox := s.mob[m]

/-- `mob[m] <- o`. -/
def State.setMailbox (s : State) (m : MobId) (o : Mailbox) : State :=
  { s with mob := s.mob.set m o }

/-- The shadow identifier of the current mailbox (10 R32). -/
def State.shadowId (s : State) : Ident := recon s.idt1 s.idt2

/-- The shadow mask of the current mailbox (10 R33). -/
def State.shadowMask (s : State) : Ident := recon s.idm1 s.idm2

/-- `snapshot(c)` (40 R102): the shadow view into bank slot c, the data bytes untouched. -/
def State.snapshot (s : State) (c : MobId) : State :=
  s.setMailbox c
    { s.mailbox c with
      dlc := cdmobDlc s.cdmob
      mode := Mode.ofCode (cdmobMode s.cdmob)
      idx := pageIndx s.page
      id := s.shadowId
      mask := s.shadowMask }

/-- `load(n)` (40 R103): bank slot n into the shadow registers but PAGE. -/
def State.load (s : State) (n : MobId) : State :=
  { s with
    cdmob := cdmobByte (s.mailbox n).mode.code 0 (s.mailbox n).dlc
    idt1 := splitHi (s.mailbox n).id
    idt2 := splitLo (s.mailbox n).id
    idm1 := splitHi (s.mailbox n).mask
    idm2 := splitLo (s.mailbox n).mask }

/-- The effects of a mailbox-select write of v to mailbox n (40 R101): snapshot first, then load,
then `cur`, PAGE and the notification. The written index is not used. -/
def State.select (s : State) (v : Byte) (n : MobId) : State :=
  let s1 : State := (s.snapshot s.cur).load n
  { s1 with
    cur := n
    page := pageByte (pageSpare v) (BitVec.ofNat 3 n.val) (pageAinc v) (s1.mailbox n).idx }.emit
    (.mailboxSwitch n)

/-- The effects of `commit(V)` (40 R104), its check passed. -/
def State.commit (s : State) (v : Byte) : State :=
  { s with cdmob := v }.setMailbox s.cur
    { s.mailbox s.cur with
      dlc := cdmobDlc v
      mode := Mode.ofCode (cdmobMode v)
      idx := pageIndx s.page
      id := s.shadowId
      mask := s.shadowMask }

/-- The value check of every configuration write (40 R104, 60 R195): a length above 8 raises
FAULT_DLC with the written byte. -/
def State.checkLength (s : State) (v : Byte) (k : Result) : Result :=
  if 8 < (cdmobDlc v).toNat then s.raise (.dlc v) else k

/-- `capture(m)` (41 R147): a projection of the message object; nothing is written. -/
def State.capture (s : State) (m : MobId) : WireFrame :=
  { id := (s.mailbox m).id, dlc := (s.mailbox m).dlc, data := (s.mailbox m).data }

/-- A transmit write holds: a bridge is present and the queue is full (40 R106, 41 R148). -/
def State.txHolds (s : State) : Bool :=
  s.cfg.bridgePresent && !decide (s.txq.length < s.cfg.txqDepth)

/-- The effects of a transmit write of v (40 R106): commit, busy, Transmit, capture, and the frame
queued for the host or, without a bridge, dropped (41 R152). -/
def State.transmit (s : State) (v : Byte) : State :=
  let s1 : State := { s.commit v with txbsy := true }.emit (.transmit s.cur)
  let f := s1.capture s.cur
  if s.cfg.bridgePresent then
    { s1 with txq := s1.txq ++ [TxEntry.mk s.cur f] }.emit (.txQueued s.cur f)
  else s1.emit (.txDropped s.cur f)

/-- The effects of a data write (40 R110): the byte at the shadow index of the current mailbox, and
the index advanced modulo 8 when `ainc_en` holds. -/
def State.storeData (s : State) (v : Byte) : State :=
  let i := pageIndx s.page
  { s with page := if s.aincEn then setIndx s.page (i + 1) else s.page }.setMailbox s.cur
    { s.mailbox s.cur with data := (s.mailbox s.cur).data.set i.toNat v i.isLt }

/-- `return v` to the program (00 R12). -/
def State.returnByte (s : State) (v : Byte) : State := { s with progByte := some v }

/-- `draw8()` returned to the program (40 R117): the next free byte. -/
def State.returnDraw (s : State) : State :=
  { s with progByte := some (Config.draw8 s.draws), draws := s.draws + 1 }

/-- `return v` of a TXPOP, the frame the host then writes (41 R149, R150). -/
def State.returnTaken (s : State) (f : WireFrame) : State := { s with takenFrame := some f }

/-- `return v` of a SEND (41 R141). -/
def State.returnLookup (s : State) (f : WireFrame) : State := { s with lookupFrame := some f }

/-- The filter predicate `match(m, ID)` (41 R143) of one message object. -/
def Mailbox.accepts (o : Mailbox) (id : Ident) : Bool :=
  o.mode == .rx && (id &&& o.mask == o.id &&& o.mask)

/-- The scan of RECEIVE (41 R142): the first mailbox in index order that accepts. -/
def State.findMatch (s : State) (id : Ident) : Option MobId :=
  allMobs.find? fun m => (s.mailbox m).accepts id

/-- The data bytes after a delivery (41 R144): the received bytes below the length, free bytes from
there on. -/
def deliveredData (draws : Nat) (l : DataLength) (d : Payload) : Payload :=
  Vector.ofFn fun i : Fin 8 => if i.val < l.toNat then d[i] else Config.draw8 (draws + i.val)

/-- `deliver(m, ID, L, D)` (41 R144). Each delivery passes eight draws, of which bytes L to 7 use
their own. -/
def State.deliver (s : State) (m : MobId) (id : Ident) (l : DataLength) (d : Payload) : State :=
  { s with idt1 := splitHi id, idt2 := splitLo id, draws := s.draws + 8 }.setMailbox m
    { s.mailbox m with dlc := l, data := deliveredData s.draws l d }

/-- The effects of a RECEIVE (41 R142, R145). -/
def State.receive (s : State) (id : Ident) (l : DataLength) (d : Payload) : State :=
  match s.findMatch id with
  | some m =>
    { s.deliver m id l d with hrxResult := some (.matched m) }.emit (.rxMatched m ⟨id, l, d⟩)
  | none => { s with hrxResult := some .noMatch }.emit (.rxNoMatch ⟨id, l, d⟩)

/-- The oldest entry of mailbox index m in a queue, and the queue without it, the others in their
order (41 R149); none when there is no such entry. -/
def takeOldest (m : Nat) : List TxEntry → Option (TxEntry × List TxEntry)
  | [] => none
  | e :: q =>
    if e.m.val = m then some (e, q)
    else (takeOldest m q).map fun r => (r.1, e :: r.2)

/-- The effects of a TXPOP that takes e, leaves the queue q and records the event ev
(41 R149, R151). -/
def State.popFrame (s : State) (ev : Event) (e : TxEntry) (q : List TxEntry) : State :=
  ({ s with txq := q, txbsy := txbsyAfterPop s.cfg.txbsyClear q s.txbsy }.emit ev).returnTaken
    e.frame

/-- The effects of a device reset (70 R210): PAGE bit 3, and the event. -/
def State.deviceReset (s : State) : State :=
  { s with page := setAinc s.page (aincOn s.cfg) }.emit .deviceReset

/-- A frame the deserializer drops (41 R163): RxDropped, and no RECEIVE. -/
def State.dropFrame (s : State) (b : List Byte) : Result :=
  s.hostRequest (.next (s.emit (.rxDropped b)))

end Sys2Proof.Machine
end

