-- ==== Sys2Proof/Machine/HostOps.lean ====
section
/-! DEFINITION. The meanings of the host requests (spec/41_host_ops.md) and of the device reset
(70 R210). -/

namespace Sys2Proof.Machine

/-- HOST.SEND, Send-lookup (41 R141): the bank's frame, not the shadow's. -/
def execHostSend (m : Byte) (s : State) : Result :=
  s.hostRequest <|
    match mobOf m.toNat with
    | some n => .next (s.returnLookup (s.capture n))
    | none => s.raise (.mobIndex m)

/-- HOST.RECEIVE, Receive-match (41 R142). A term with a reserved length is no transaction
(30 R85). -/
def execHostReceive (id : Ident) (l : DataLength) (d : Payload) (s : State) : Result :=
  s.hostRequest <| if l.toNat ≤ 8 then .next (s.receive id l d) else .refused .reservedLength

/-- HOST.TXPOP (41 R149): the enabling condition comes before the check of RES (60 R195). With no
queued frame of m it has no step: nothing changes (log 7). -/
def execHostTxpop (res : WriteResult) (m : Byte) (s : State) : Result :=
  s.hostRequest <|
    match takeOldest m.toNat s.txq with
    | none => .next s
    | some (e, q) =>
      match res with
      | .error => s.raise (.hostWrite m)
      | .ok => .next (s.popFrame (.txWritten e.m e.frame) e q)
      | .short => .next (s.popFrame (.txShortWrite e.m e.frame) e q)

/-- RESET, the device reset (70 R210). -/
def execReset (s : State) : Result := s.whenLive (.next s.deviceReset)

end Sys2Proof.Machine
end

