-- ==== Sys2Proof/Machine/Program.lean ====
section
/-! DEFINITION. The meanings of the program's register operations (spec/40_register_ops.md) and of
WR.RESETREG (70 R211). -/

namespace Sys2Proof.Machine

/-- WR.PAGE, the mailbox-select write (40 R101). -/
def execWrPage (v : Byte) (s : State) : Result :=
  s.whenLive <|
    match mobOf (pageMobnb v).toNat with
    | some n => .next (s.select v n)
    | none => s.raise (.mobIndex ((pageMobnb v).setWidth 8))

/-- WR.CDMOB.DIS (40 R105). -/
def execWrCdmobDis (x : BitVec 2) (l : DataLength) (s : State) : Result :=
  let v := cdmobByte Mode.dis.code x l
  s.whenLive <| s.checkLength v <| .next (s.commit v)

/-- WR.CDMOB.TX (40 R106). The length check comes before the hold; a write that holds changes
nothing (41 R148). -/
def execWrCdmobTx (x : BitVec 2) (l : DataLength) (s : State) : Result :=
  let v := cdmobByte Mode.tx.code x l
  s.whenLive <| s.checkLength v <| if s.txHolds then .next s else .next (s.transmit v)

/-- WR.CDMOB.RX (40 R107). -/
def execWrCdmobRx (x : BitVec 2) (l : DataLength) (s : State) : Result :=
  let v := cdmobByte Mode.rx.code x l
  s.whenLive <| s.checkLength v <| .next (s.commit v)

/-- WR.CDMOB.RXB (40 R108): no buffer reception happens. -/
def execWrCdmobRxb (x : BitVec 2) (l : DataLength) (s : State) : Result :=
  let v := cdmobByte Mode.rxb.code x l
  s.whenLive <| s.checkLength v <| .next (s.commit v)

/-- WR.MSG, the data write (40 R110). -/
def execWrMsg (v : Byte) (s : State) : Result := s.whenLive (.next (s.storeData v))

/-- WR.IDT1 (40 R111). -/
def execWrIdt1 (v : Byte) (s : State) : Result := s.whenLive (.next { s with idt1 := v })

/-- WR.IDT2 (40 R112). -/
def execWrIdt2 (v : Byte) (s : State) : Result := s.whenLive (.next { s with idt2 := v })

/-- WR.IDM1 (40 R113). -/
def execWrIdm1 (v : Byte) (s : State) : Result := s.whenLive (.next { s with idm1 := v })

/-- WR.IDM2 (40 R114). -/
def execWrIdm2 (v : Byte) (s : State) : Result := s.whenLive (.next { s with idm2 := v })

/-- WR.RESETREG (70 R211): exactly the effect of RESET; the written byte is not stored. It exists
only when RESET_TRIGGER_ADDR is set (log 15). -/
def execWrResetReg (_v : Byte) (s : State) : Result :=
  s.whenLive <|
    if s.cfg.resetTrigger.isSome then .next s.deviceReset else .refused .noResetTrigger

/-- RD.PAGE (40 R115). -/
def execRdPage (s : State) : Result := s.whenLive (.next (s.returnByte s.page))

/-- RD.CDMOB (40 R116). -/
def execRdCdmob (s : State) : Result := s.whenLive (.next (s.returnByte s.cdmob))

/-- RD.MSG (40 R117): an unspecified byte; the index does not move. -/
def execRdMsg (s : State) : Result := s.whenLive (.next s.returnDraw)

/-- RD.IDT1 (40 R118). -/
def execRdIdt1 (s : State) : Result := s.whenLive (.next (s.returnByte s.idt1))

/-- RD.IDT2 (40 R119). -/
def execRdIdt2 (s : State) : Result := s.whenLive (.next (s.returnByte s.idt2))

/-- RD.IDM1 (40 R120). -/
def execRdIdm1 (s : State) : Result := s.whenLive (.next (s.returnByte s.idm1))

/-- RD.IDM2 (40 R121). -/
def execRdIdm2 (s : State) : Result := s.whenLive (.next (s.returnByte s.idm2))

end Sys2Proof.Machine
end

