-- ==== Sys2Proof/Machine/Dispatch.lean ====
section
/-! DEFINITION. The dispatch: one arm per operation of the opcode table (30 R90). -/

namespace Sys2Proof.Machine

def exec (i : Instr) (s : State) : Host.Outcome State Fault Refusal :=
  match i with
  | .wrPage v => Sys2Proof.Machine.execWrPage v s
  | .wrCdmobDis x l => Sys2Proof.Machine.execWrCdmobDis x l s
  | .wrCdmobTx x l => Sys2Proof.Machine.execWrCdmobTx x l s
  | .wrCdmobRx x l => Sys2Proof.Machine.execWrCdmobRx x l s
  | .wrCdmobRxb x l => Sys2Proof.Machine.execWrCdmobRxb x l s
  | .wrMsg v => Sys2Proof.Machine.execWrMsg v s
  | .wrIdt1 v => Sys2Proof.Machine.execWrIdt1 v s
  | .wrIdt2 v => Sys2Proof.Machine.execWrIdt2 v s
  | .wrIdm1 v => Sys2Proof.Machine.execWrIdm1 v s
  | .wrIdm2 v => Sys2Proof.Machine.execWrIdm2 v s
  | .wrResetReg v => Sys2Proof.Machine.execWrResetReg v s
  | .rdPage => Sys2Proof.Machine.execRdPage s
  | .rdCdmob => Sys2Proof.Machine.execRdCdmob s
  | .rdMsg => Sys2Proof.Machine.execRdMsg s
  | .rdIdt1 => Sys2Proof.Machine.execRdIdt1 s
  | .rdIdt2 => Sys2Proof.Machine.execRdIdt2 s
  | .rdIdm1 => Sys2Proof.Machine.execRdIdm1 s
  | .rdIdm2 => Sys2Proof.Machine.execRdIdm2 s
  | .hostSend m => Sys2Proof.Machine.execHostSend m s
  | .hostReceive id l d => Sys2Proof.Machine.execHostReceive id l d s
  | .hostTxpop res m => Sys2Proof.Machine.execHostTxpop res m s
  | .reset => Sys2Proof.Machine.execReset s

end Sys2Proof.Machine
end

