-- ==== Sys2Proof/Machine/Serializer.lean ====
section
/-! DEFINITION. The frame serializer and deserializer of the host bridge (41 R160 to R164). -/

namespace Sys2Proof.Machine

/-- The four bytes of a 32-bit word, least significant first. -/
def wordBytes (w : Word) : List Byte :=
  [w.extractLsb' 0 8, w.extractLsb' 8 8, w.extractLsb' 16 8, w.extractLsb' 24 8]

/-- The identifier word in the host's byte order (41 R160). -/
def orderedBytes (o : ByteOrder) (w : Word) : List Byte :=
  match o with
  | .little => wordBytes w
  | .big => (wordBytes w).reverse

/-- `serialize(f)` (41 R160): the identifier word with its flag bits zero, the length, three zero
bytes, and the eight data bytes. -/
def serialize (o : ByteOrder) (f : WireFrame) : List Byte :=
  orderedBytes o (f.id.setWidth 32) ++ [f.dlc.setWidth 8, 0, 0, 0] ++ f.data.toList

/-- `word32(B[0..3], HOST_BYTE_ORDER)` (41 R162). -/
def word32 (o : ByteOrder) (b0 b1 b2 b3 : Byte) : Word :=
  match o with
  | .little => b3 ++ b2 ++ b1 ++ b0
  | .big => b0 ++ b1 ++ b2 ++ b3

/-- `deserialize(B)` (41 R162, R163): the RECEIVE a read of the endpoint issues, or none when the
frame is dropped (a length byte above 8, or fewer than 16 bytes). The identifier is W[10:0]; the
other bits of W and bytes 5 to 7 are ignored. Bytes beyond the sixteenth are not looked at
(log 13). -/
def deserialize (o : ByteOrder) (b : List Byte) : Option WireFrame :=
  match b with
  | b0 :: b1 :: b2 :: b3 :: n :: _ :: _ :: _ :: d0 :: d1 :: d2 :: d3 :: d4 :: d5 :: d6 :: d7 :: _ =>
    if n.toNat ≤ 8 then
      some { id := (word32 o b0 b1 b2 b3).setWidth 11
             dlc := n.setWidth 4
             data := #v[d0, d1, d2, d3, d4, d5, d6, d7] }
    else none
  | _ => none

/-- What the host writes to its endpoint: the frame the last TXPOP returned, serialized (41 R150). A
frame that a SEND looked up is not written. -/
def State.endpointBytes (s : State) : Option (List Byte) :=
  s.takenFrame.map (serialize s.cfg.hostByteOrder)

end Sys2Proof.Machine
end

