-- ==== Sys2Proof/Machine/Fetch.lean ====
section
/-! DEFINITION. How a request of an agent comes to be taken (20 R60, R61; 60 R194, R195): the
agents' inboxes, what a request presents to the block, and which transactions are not enabled. -/

namespace Sys2Proof.Machine

/-- The requests an agent has pending, oldest first. -/
def Inbox.of (b : Inbox) : Agent → List Request
  | .prog => b.prog
  | .hrx => b.hrx
  | .htx => b.htx
  | .rst => b.rst

/-- The inboxes with one agent's list replaced. -/
def Inbox.put (b : Inbox) (a : Agent) (l : List Request) : Inbox :=
  match a with
  | .prog => { b with prog := l }
  | .hrx => { b with hrx := l }
  | .htx => { b with htx := l }
  | .rst => { b with rst := l }

/-- The agent that issues an operation (60 R194). -/
def agentOf : Instr → Agent
  | .wrPage _ | .wrCdmobDis _ _ | .wrCdmobTx _ _ | .wrCdmobRx _ _ | .wrCdmobRxb _ _ | .wrMsg _
  | .wrIdt1 _ | .wrIdt2 _ | .wrIdm1 _ | .wrIdm2 _ | .wrResetReg _ | .rdPage | .rdCdmob | .rdMsg
  | .rdIdt1 | .rdIdt2 | .rdIdm1 | .rdIdm2 => .prog
  | .hostReceive _ _ _ => .hrx
  | .hostSend _ | .hostTxpop _ _ => .htx
  | .reset => .rst

/-- The SEL number of an address (30 R81): the register it is a parameter of, or 7 for the
reset-trigger address when that is set, or none (20 R52). -/
def selOfAddr (p : Params) (addr : Nat) : Option (BitVec 4) :=
  if addr = p.regs.page then some 0
  else if addr = p.regs.cdmob then some 1
  else if addr = p.regs.msg then some 2
  else if addr = p.regs.idt1 then some 3
  else if addr = p.regs.idt2 then some 4
  else if addr = p.regs.idm1 then some 5
  else if addr = p.regs.idm2 then some 6
  else if p.resetTrigger = some addr then some 7
  else none

/-- What a request presents to the block. -/
inductive Presented where
  /-- A transaction of the block. -/
  | transaction (i : Instr)
  /-- An access the block does not see (20 R52). -/
  | unseen
  /-- A frame the deserializer drops (41 R163). -/
  | dropped (bytes : List Byte)
  /-- A word that is no transaction (30 R84). -/
  | invalid (e : DecodeError)
  deriving DecidableEq, Repr

/-- The transaction of a word, under the launch's parameters (30 R84, R90). -/
def presentWord (p : Params) (t : Word) (d : Payload) : Presented :=
  match decode p.resetTrigger.isSome t d with
  | .ok i => .transaction i
  | .error e => .invalid e

/-- The transaction of a program's write of v to an address (30 R81). -/
def presentWrite (p : Params) (addr : Nat) (v : Byte) : Presented :=
  match selOfAddr p addr with
  | some sel => presentWord p (writeWord sel v) Payload.zero
  | none => .unseen

/-- The transaction of a program's read of an address (30 R81): a read of the reset-trigger address
is none (70 R211). -/
def presentRead (p : Params) (addr : Nat) : Presented :=
  match selOfAddr p addr with
  | some sel => if sel = 7 then .unseen else presentWord p (readWord sel) Payload.zero
  | none => .unseen

/-- The RECEIVE of the bytes read from the endpoint, or the dropped frame (41 R162, R163). -/
def presentFrame (p : Params) (b : List Byte) : Presented :=
  match deserialize p.hostByteOrder b with
  | some f => .transaction (.hostReceive f.id f.dlc f.data)
  | none => .dropped b

/-- What a request presents to the block. -/
def Request.present (p : Params) : Request → Presented
  | .word t d => presentWord p t d
  | .busWrite addr v => presentWrite p addr v
  | .busRead addr => presentRead p addr
  | .hostRead b => presentFrame p b

/-- The agent may present this request (60 R193, R194): a word from the agent that issues its
operation, a bus access from the program, bytes of the endpoint from the inbound loop. -/
def mayPresent (p : Params) (a : Agent) (q : Request) : Bool :=
  match q with
  | .word t d =>
    match presentWord p t d with
    | .transaction i => agentOf i == a
    | .unseen | .dropped _ | .invalid _ => true
  | .busWrite _ _ | .busRead _ => a == .prog
  | .hostRead _ => a == .hrx

/-- The transaction is not enabled in s, so that it stays pending (60 R195, log 7): a transmit write
that passed its check and holds (41 R148), or a TXPOP with no queued frame of its mailbox
(41 R149). -/
def waits (i : Instr) (s : State) : Bool :=
  match i with
  | .wrCdmobTx _ l => decide (l.toNat ≤ 8) && s.txHolds
  | .hostTxpop _ m => s.cfg.bridgePresent && (takeOldest m.toNat s.txq).isNone
  | .wrPage _ | .wrCdmobDis _ _ | .wrCdmobRx _ _ | .wrCdmobRxb _ _ | .wrMsg _
  | .wrIdt1 _ | .wrIdt2 _ | .wrIdm1 _ | .wrIdm2 _ | .wrResetReg _ | .rdPage | .rdCdmob | .rdMsg
  | .rdIdt1 | .rdIdt2 | .rdIdm1 | .rdIdm2 | .hostSend _ | .hostReceive _ _ _ | .reset => false

/-- The turn of the first agent is over, its requests unchanged. -/
def State.passTurn (s : State) : State := { s with turns := s.turns.tail }

/-- The turn of the agent a is over, and its oldest request is taken. -/
def State.takeRequest (s : State) (a : Agent) : State :=
  { s with turns := s.turns.tail, inbox := s.inbox.put a (s.inbox.of a).tail }

/-- The turn of the agent a, whose oldest request is q. -/
def serve (a : Agent) (q : Request) (s : State) : Result :=
  if mayPresent s.cfg a q then
    match q.present s.cfg with
    | .transaction i => if waits i s then .next s.passTurn else exec i (s.takeRequest a)
    | .unseen => .next (s.takeRequest a)
    | .dropped b => (s.takeRequest a).dropFrame b
    | .invalid e => .refused (.notATransaction e)
  else .refused .wrongAgent

/-- The next turn: the agent that moves presents its oldest request; with no turn left, or nothing
pending, nothing happens (log 21). -/
def nextTurn (s : State) : Result :=
  s.whenLive <|
    match s.turns with
    | [] => .next s
    | a :: _ =>
      match s.inbox.of a with
      | [] => .next s.passTurn
      | q :: _ => serve a q s

/-- An address that is none of the seven registers' (00 R10), for a launch that sets
RESET_TRIGGER_ADDR: one more than their sum. -/
def unusedAddr (r : RegMap) : Nat := r.list.sum + 1

/-- The launch with the WR.RESETREG row present: RESET_TRIGGER_ADDR as it was, or, where it was
unset, an address that is no register's. -/
def withResetRow (p : Params) : Params :=
  { p with resetTrigger := some (p.resetTrigger.getD (unusedAddr p.regs)) }

/-- s with the word t (its side operand eight zero bytes) as the oldest request of the agent that
issues it, that agent next to move, and, for a WR.RESETREG, its row present (log 14). -/
def State.placeWord (s : State) (t : Word) : State :=
  match decode true t Payload.zero with
  | .ok i =>
    { s with
      cfg := if i.hasRow s.cfg then s.cfg else withResetRow s.cfg
      inbox := s.inbox.put (agentOf i) (.word t Payload.zero :: s.inbox.of (agentOf i))
      turns := agentOf i :: s.turns }
  | .error _ =>
    { s with
      inbox := s.inbox.put .prog (.word t Payload.zero :: s.inbox.of .prog)
      turns := .prog :: s.turns }

end Sys2Proof.Machine
end

