-- ==== Sys2Proof/Machine/Step.lean ====
section
/-! DEFINITION. One step of the block: one agent's turn (60 R196), and the placing of a word where
the next step takes it. -/

namespace Sys2Proof.Machine

/-- One step (20 R60, R61): the next agent's turn. -/
def step (s : State) : Host.Outcome State Fault Refusal := nextTurn s

/-- s with the transaction word w placed so that the next step takes it (log 14). -/
def State.withFetchWord (s : State) (nbits w : Nat) : State :=
  s.placeWord (BitVec.ofNat 32 (w % 2 ^ nbits))

end Sys2Proof.Machine
end

