-- ==== Sys2Proof/Safety.lean ====
section
/-! DEFINITION. What counts as a good state and a good end of a run, and the words the statements
use, written from the spec's own bit positions. -/

namespace Sys2Proof.Machine

/-- 10 R41 (a) and (b): R[PAGE][6:4] is the current mailbox, which is one of 0 to 5. -/
abbrev MobnbIsCur (s : State) : Prop :=
  (s.page.extractLsb' 4 3).toNat = s.cur.val ∧ s.cur.val ≤ 5

/-- 10 R41 (c): every length held is 0 to 8. -/
abbrev LengthsLegal (s : State) : Prop :=
  (s.cdmob.extractLsb' 0 4).toNat ≤ 8 ∧ ∀ m : MobId, (s.mailbox m).dlc.toNat ≤ 8

/-- 10 R41: the three invariants of every reachable state. -/
abbrev RegisterInvariant (s : State) : Prop := MobnbIsCur s ∧ LengthsLegal s

/-- 40 R123: R[CDMOB][7:6] is the mode of the current mailbox. -/
abbrev ModeAgrees (s : State) : Prop := s.cdmob.extractLsb' 6 2 = (s.mailbox s.cur).mode.code

/-- 10 R37, R38: the queue is no longer than TXQ_DEPTH, and its frames have lengths 0 to 8. -/
abbrev QueueLegal (s : State) : Prop :=
  s.txq.length ≤ s.cfg.txqDepth ∧ ∀ e ∈ s.txq, e.frame.dlc.toNat ≤ 8

/-- 41 R152: without a bridge the queue is empty. -/
abbrev NoBridgeNoQueue (s : State) : Prop := s.cfg.bridgePresent = false → s.txq = []

/-- The queued entries of mailbox m, oldest first (41 R149, R153). -/
def State.queueOf (s : State) (m : MobId) : List TxEntry := s.txq.filter fun e => e.m == m

/-- `ainc_en` (10 R34), written out: PAGE bit 3 is 0 under AINC_ACTIVE_LOW, and 1 otherwise. -/
abbrev AincEnabled (s : State) : Prop :=
  s.page.extractLsb' 3 1 = if s.cfg.aincActiveLow then 0#1 else 1#1

/-- The mailbox accepts the identifier (41 R143). -/
abbrev Accepts (o : Mailbox) (id : Ident) : Prop :=
  o.mode = .rx ∧ id &&& o.mask = o.id &&& o.mask

/-- The message object the shadow registers describe, with the length l, the mode and the payload
given (40 R102, R104): the index is R[PAGE][2:0], the identifier and the mask are the packed
register pairs. -/
abbrev shadowObject (s : State) (l : DataLength) (mode : Mode) (data : Payload) : Mailbox :=
  { id := s.idt1 ++ s.idt2.extractLsb' 5 3
    mask := s.idm1 ++ s.idm2.extractLsb' 5 3
    data := data
    dlc := l
    idx := s.page.extractLsb' 0 3
    mode := mode }

/-- t is what `commit` with the mode, the X field and the length leaves (40 R104): CDMOB is the
written byte, the current mailbox is what the shadow describes with its data bytes kept, every
other mailbox is unchanged. -/
abbrev Committed (s t : State) (mode : Mode) (x : BitVec 2) (l : DataLength) : Prop :=
  t.cdmob = mode.code ++ x ++ l ∧
    t.mailbox s.cur = shadowObject s l mode (s.mailbox s.cur).data ∧
    ∀ m, m ≠ s.cur → t.mailbox m = s.mailbox m

/-- The state a raised fault leaves (60 R185): `fault` and one event, nothing else. -/
abbrev withFault (s : State) (r : FaultReason) : State :=
  { s with fault := some r, hist := s.hist ++ [.fault r] }

/-- The instruction's word has these KIND and SEL fields (30 R80). -/
abbrev HasKindSel (i : Instr) (kind sel : Nat) : Prop :=
  (((encode i).1).extractLsb' 28 4).toNat = kind ∧ (((encode i).1).extractLsb' 24 4).toNat = sel

/-- Transactions taken one after another, stopping at the first fault or refusal. -/
def runInstrs : List Instr → State → Host.Outcome State Fault Refusal
  | [], s => .next s
  | i :: is, s =>
    match exec i s with
    | .next t => runInstrs is t
    | .fault r => .fault r
    | .refused r => .refused r

/-- The end of a run (70 R233): the program has no transaction left and none holds, there is no
fault, and with a bridge the queue is empty. -/
abbrev EndedWell (s : State) : Prop :=
  s.inbox.prog = [] ∧ s.fault = none ∧ (s.cfg.bridgePresent = true → s.txq = [])

end Sys2Proof.Machine
end

