-- ==== Sys2Proof/Certificates/Slice0/Obligations.lean ====
section
/-! DEFINITION. The statements for the provers, each from the spec's numbered rules. Field positions
are written out in bits, so that a statement does not lean on the model's own field functions. A
statement names the fields an operation writes; `t = { s with … }` with t's own values for those
fields is its frame: nothing else differs, not one register, flag, mailbox, queue entry, response,
parameter or pending request. -/

open Sys2Proof Sys2Proof.Machine

/-! ### Encodings -/

/-- 30 R80 to R83, R90: decoding what was encoded gives the instruction back, for every well-formed
instruction and every value of its operands. -/
def Obligations.DecodeOfEncodeIsTheInstruction : Prop :=
  ∀ i : Instr, i.wf = true → decode true (encode i).1 (encode i).2 = .ok i

/-- 30 R84, R85: each accepted word is the encoding of the one instruction it decodes to, so the
decoder ignores no bit of the word, and that instruction is well-formed. -/
def Obligations.AcceptedWordsAreEncodings : Prop :=
  ∀ (resetRow : Bool) (t : Word) (d : Payload) (i : Instr),
    decode resetRow t d = .ok i → (encode i).1 = t ∧ i.wf = true

/-- 30 R84: a word matches at most one row of the opcode map. -/
def Obligations.WordMatchesAtMostOneRow : Prop :=
  ∀ (t : Word) (j k : Nat) (hj : j < opcodeRows.length) (hk : k < opcodeRows.length),
    rowMatches t opcodeRows[j] = true → rowMatches t opcodeRows[k] = true → j = k

/-- 30 R84, R85, R90: a word is a transaction exactly when it matches a row and is neither a RECEIVE
with L in 9 to 15 nor a TXPOP with RES = 3, and then it is that row's operation. -/
def Obligations.DecoderAcceptsTheRowsButTheReservedRanges : Prop :=
  ∀ (t : Word) (d : Payload) (n : Nat),
    (∃ i, decode true t d = .ok i ∧ i.rowNumber = n) ↔
      (∃ r, opcodeRows[n]? = some r ∧ rowMatches t r = true) ∧
        ¬ (n = 19 ∧ 8 < (t.extractLsb' 11 4).toNat) ∧ ¬ (n = 20 ∧ t.extractLsb' 8 2 = 3#2)

/-- 30 R90, R81: the WR.RESETREG row exists only when RESET_TRIGGER_ADDR is set; every other
instruction decodes from the same words whether it is set or not. -/
def Obligations.ResetRegisterRowNeedsItsAddress : Prop :=
  (∀ (t : Word) (d : Payload) (v : Byte), decode false t d ≠ .ok (.wrResetReg v)) ∧
    ∀ (t : Word) (d : Payload) (i : Instr), i.rowNumber ≠ 10 →
      (decode true t d = .ok i ↔ decode false t d = .ok i)

/-- 30 R90 and spec/95 V112, V116 to V118: a few words, and what they decode to. -/
def Obligations.SampleWordsDecode : Prop :=
  decode true 0x0000005F Payload.zero = .ok (.wrPage 0x5F) ∧
    decode true 0x010000C5 Payload.zero = .ok (.wrCdmobRxb 0 5) ∧
    decode true 0x020000AB Payload.zero = .ok (.wrMsg 0xAB) ∧
    decode true 0x15000000 Payload.zero = .ok .rdIdm1 ∧
    decode true 0x21004456 Payload.zero = .ok (.hostReceive 0x456 8 Payload.zero) ∧
    decode true 0x22000102 Payload.zero = .ok (.hostTxpop .short 2) ∧
    decode true 0x30000000 Payload.zero = .ok .reset ∧
    decode true 0x17000000 Payload.zero = .error .reservedSel ∧
    decode true 0x21004900 Payload.zero = .error .reservedLength ∧
    decode true 0x21008123 Payload.zero = .error .nonzeroBits ∧
    decode true 0x40000000 Payload.zero = .error .reservedKind

/-- 30 R76 (a) and (b): the packing laws. -/
def Obligations.PackingRoundTrips : Prop :=
  (∀ v : Ident, recon (splitHi v) (splitLo v) = v) ∧
    ∀ hi lo : Byte, splitHi (recon hi lo) = hi ∧ splitLo (recon hi lo) = lo &&& 0xE0

/-- 10 R24, 30 R75: the four mode codes, that every 2-bit code has its mode, and the operation each
MODE field of a configuration write selects. -/
def Obligations.ModeCodesAndTheirWrites : Prop :=
  (Mode.dis.code = 0 ∧ Mode.tx.code = 1 ∧ Mode.rx.code = 2 ∧ Mode.rxb.code = 3) ∧
    (∀ c : BitVec 2, (Mode.ofCode c).code = c) ∧
    ∀ (x : BitVec 2) (l : DataLength) (d : Payload) (r : Bool),
      decode r (0x010000#24 ++ (0#2 ++ x ++ l)) d = .ok (.wrCdmobDis x l) ∧
      decode r (0x010000#24 ++ (1#2 ++ x ++ l)) d = .ok (.wrCdmobTx x l) ∧
      decode r (0x010000#24 ++ (2#2 ++ x ++ l)) d = .ok (.wrCdmobRx x l) ∧
      decode r (0x010000#24 ++ (3#2 ++ x ++ l)) d = .ok (.wrCdmobRxb x l)

/-! ### Steps, agents and the bus -/

/-- 20 R60, R61; 30 R81; 60 R194: when the agent that moves has as its oldest request a word that
decodes to an operation it issues, or when it is the program and that request is a byte access that
presents an operation (log 12), and the transaction is enabled, the step is exec of that
instruction, on the state with the turn over and the request taken (log 6). -/
def Obligations.StepRunsTheDecodedInstruction : Prop :=
  (∀ (s : State) (a : Agent) (ts : List Agent) (t : Word) (d : Payload) (rest : List Request)
    (i : Instr), s.fault = none → s.turns = a :: ts → s.inbox.of a = .word t d :: rest →
    decode s.cfg.resetTrigger.isSome t d = .ok i → agentOf i = a → waits i s = false →
    step s = exec i { s with turns := ts, inbox := s.inbox.put a rest }) ∧
  ∀ (s : State) (ts : List Agent) (q : Request) (rest : List Request) (i : Instr),
    s.fault = none → s.turns = .prog :: ts → s.inbox.prog = q :: rest →
    (∃ addr v, q = .busWrite addr v ∨ q = .busRead addr) → q.present s.cfg = .transaction i →
    waits i s = false →
    step s = exec i { s with turns := ts, inbox := { s.inbox with prog := rest } }

/-- 20 R60, 41 R148, R149, 60 R195: a transaction that holds or is not enabled takes no step: the
state is unchanged but for the turn, and its request stays the agent's oldest, be it a word or the
program's byte access (log 6, 12). It waits exactly when it is a transmit write of a legal length at
a full queue of a present bridge, or a TXPOP of a mailbox with no queued frame. That such a turn
answers a next state is the model's form (log 7). -/
def Obligations.DisabledTransactionsStayPending : Prop :=
  (∀ (s : State) (a : Agent) (ts : List Agent) (t : Word) (d : Payload) (rest : List Request)
    (i : Instr), s.fault = none → s.turns = a :: ts → s.inbox.of a = .word t d :: rest →
    decode s.cfg.resetTrigger.isSome t d = .ok i → agentOf i = a → waits i s = true →
    step s = .next { s with turns := ts } ∧ exec i s = .next s) ∧
  (∀ (s : State) (ts : List Agent) (q : Request) (rest : List Request) (i : Instr),
    s.fault = none → s.turns = .prog :: ts → s.inbox.prog = q :: rest →
    (∃ addr v, q = .busWrite addr v ∨ q = .busRead addr) → q.present s.cfg = .transaction i →
    waits i s = true → step s = .next { s with turns := ts } ∧ exec i s = .next s) ∧
  ∀ (s : State) (i : Instr), waits i s = true ↔
    s.cfg.bridgePresent = true ∧
      ((∃ x l, i = .wrCdmobTx x l ∧ l.toNat ≤ 8 ∧ s.cfg.txqDepth ≤ s.txq.length) ∨
        ∃ res m, i = .hostTxpop res m ∧ ∀ e ∈ s.txq, e.m.val ≠ m.toNat)

/-- 60 R185: from the moment a fault is recorded, no transaction of any agent has a step, RESET
included. -/
def Obligations.FaultedBlockHasNoStep : Prop :=
  ∀ (s : State) (r : FaultReason), s.fault = some r →
    step s = .fault (.halted r) ∧ ∀ i : Instr, exec i s = .fault (.halted r)

/-- 30 R84: a word that is no transaction of the block gets no step: the turn of an agent that
presents one (log 6) is refused. -/
def Obligations.NoTransactionIsRefused : Prop :=
  ∀ (s : State) (a : Agent) (ts : List Agent) (t : Word) (d : Payload) (rest : List Request)
    (e : DecodeError), s.fault = none → s.turns = a :: ts → s.inbox.of a = .word t d :: rest →
    decode s.cfg.resetTrigger.isSome t d = .error e → step s = .refused (.notATransaction e)

/-- 60 R193, R194: a program access, a byte access included, is taken from the program only, a host
request from its host agent only, and a read of the endpoint from the inbound loop only. Refusing
the others is the model's choice (log 11), and so is the form of the requests (log 6, 12). -/
def Obligations.OperationsComeFromTheirAgent : Prop :=
  ∀ (s : State) (a : Agent) (ts : List Agent) (q : Request) (rest : List Request),
    s.fault = none → s.turns = a :: ts → s.inbox.of a = q :: rest →
    ((∃ t d i, q = .word t d ∧ decode s.cfg.resetTrigger.isSome t d = .ok i ∧ agentOf i ≠ a) ∨
      ((∃ addr v, q = .busWrite addr v ∨ q = .busRead addr) ∧ a ≠ .prog) ∨
      ((∃ b, q = .hostRead b) ∧ a ≠ .hrx)) →
    step s = .refused .wrongAgent

/-- 30 R81: the transaction of a program's byte access is the one of the register whose address it
names (a request by address, log 12), for every address map 00 R10 allows; a write to the
reset-trigger address is WR.RESETREG and a read of it is no transaction. -/
def Obligations.BusAccessesNameTheirRegister : Prop :=
  ∀ (p : Params) (v : Byte), p.wf = true →
    ((Request.busWrite p.regs.page v).present p = .transaction (.wrPage v) ∧
      (Request.busWrite p.regs.cdmob v).present p = presentWord p (0x010000#24 ++ v) Payload.zero ∧
      (Request.busWrite p.regs.msg v).present p = .transaction (.wrMsg v) ∧
      (Request.busWrite p.regs.idt1 v).present p = .transaction (.wrIdt1 v) ∧
      (Request.busWrite p.regs.idt2 v).present p = .transaction (.wrIdt2 v) ∧
      (Request.busWrite p.regs.idm1 v).present p = .transaction (.wrIdm1 v) ∧
      (Request.busWrite p.regs.idm2 v).present p = .transaction (.wrIdm2 v)) ∧
    ((Request.busRead p.regs.page).present p = .transaction .rdPage ∧
      (Request.busRead p.regs.cdmob).present p = .transaction .rdCdmob ∧
      (Request.busRead p.regs.msg).present p = .transaction .rdMsg ∧
      (Request.busRead p.regs.idt1).present p = .transaction .rdIdt1 ∧
      (Request.busRead p.regs.idt2).present p = .transaction .rdIdt2 ∧
      (Request.busRead p.regs.idm1).present p = .transaction .rdIdm1 ∧
      (Request.busRead p.regs.idm2).present p = .transaction .rdIdm2) ∧
    ∀ a, p.resetTrigger = some a →
      (Request.busWrite a v).present p = .transaction (.wrResetReg v) ∧
        (Request.busRead a).present p = .unseen

/-- 20 R52: a program access to an address that is none of the parameters is not seen by the block:
the step changes nothing but the turn and the program's list of requests, the model's own fields
(log 6, 12). -/
def Obligations.OtherAddressesAreNotSeen : Prop :=
  ∀ (s : State) (ts : List Agent) (addr : Nat) (v : Byte) (rest : List Request),
    s.fault = none → s.turns = .prog :: ts → addr ∉ s.cfg.regs.list →
    s.cfg.resetTrigger ≠ some addr →
    (s.inbox.prog = .busWrite addr v :: rest ∨ s.inbox.prog = .busRead addr :: rest) →
    step s = .next { s with turns := ts, inbox := { s.inbox with prog := rest } }

/-! ### Power-on -/

/-- The power-on state of every launch in the spec's default reading of 10 R43, which is the spec's
own decision (D27) and the model's choice of the two readings R43 allows (log 4); and that the
machine starts in power-on (log 20) of one launch, which is the model's choice (log 2). -/
def Obligations.PowerOnValues : Prop :=
  (∀ (p : Params) (startup : Option InitStep),
    let s := State.powerOn p startup
    (∀ m : MobId, (s.mailbox m).id = 0 ∧ (s.mailbox m).mask = 0 ∧ (s.mailbox m).dlc = 0 ∧
      (s.mailbox m).idx = 0 ∧ (s.mailbox m).mode = .dis ∧
      ∀ i : Fin 8, (s.mailbox m).data[i] = 0) ∧
    s.cur = 0 ∧ s.page = (if p.aincActiveLow then 0x00 else 0x08) ∧ AincEnabled s ∧
    s.cdmob = 0 ∧ s.idt1 = 0 ∧ s.idt2 = 0 ∧ s.idm1 = 0 ∧ s.idm2 = 0 ∧ s.txbsy = false ∧
    s.txq = [] ∧ s.hist = [] ∧ s.cfg = p ∧
    s.fault = (if p.bridgePresent then startup.map FaultReason.bridgeInit else none)) ∧
  ∃ p, State.reset = State.powerOn p none

/-- 10 R41, R38; 40 R123; 41 R152: the invariants hold at power-on of every launch, in the zero
reading of power-on (log 4). -/
def Obligations.PowerOnMeetsTheInvariants : Prop :=
  ∀ (p : Params) (startup : Option InitStep),
    RegisterInvariant (State.powerOn p startup) ∧ ModeAgrees (State.powerOn p startup) ∧
      QueueLegal (State.powerOn p startup) ∧ NoBridgeNoQueue (State.powerOn p startup)

/-! ### The mailbox-select write -/

/-- 40 R101, R102, R103: WR.PAGE with a legal mailbox number n: the old mailbox takes the shadow
view, every other slot is unchanged, the shadow registers take slot n as it then stands, PAGE is
{V[7], N, V[3], mob[n].idx}, one MailboxSwitch(n) is emitted, and nothing else changes. -/
def Obligations.SelectSavesThenLoads : Prop :=
  ∀ (s : State) (v : Byte) (n : MobId), s.fault = none → (v.extractLsb' 4 3).toNat = n.val →
    HasKindSel (.wrPage v) 0 0 ∧
    ∃ t, exec (.wrPage v) s = .next t ∧
      t.mailbox s.cur = shadowObject s (s.cdmob.extractLsb' 0 4)
        (Mode.ofCode (s.cdmob.extractLsb' 6 2)) (s.mailbox s.cur).data ∧
      (∀ m, m ≠ s.cur → t.mailbox m = s.mailbox m) ∧
      t.cdmob = (t.mailbox n).mode.code ++ 0#2 ++ (t.mailbox n).dlc ∧
      t.idt1 = (t.mailbox n).id.extractLsb' 3 8 ∧
      t.idt2 = (t.mailbox n).id.extractLsb' 0 3 ++ 0#5 ∧
      t.idm1 = (t.mailbox n).mask.extractLsb' 3 8 ∧
      t.idm2 = (t.mailbox n).mask.extractLsb' 0 3 ++ 0#5 ∧
      t.cur = n ∧
      t.page = v.extractLsb' 7 1 ++ v.extractLsb' 4 3 ++ v.extractLsb' 3 1 ++ (t.mailbox n).idx ∧
      t.hist = s.hist ++ [.mailboxSwitch n] ∧
      t = { s with
        mob := t.mob, cdmob := t.cdmob, idt1 := t.idt1, idt2 := t.idt2, idm1 := t.idm1,
        idm2 := t.idm2, cur := t.cur, page := t.page, hist := t.hist }

/-- 30 R86, 40 R101, 60 R181: WR.PAGE with N = 6 or 7 raises FAULT_MOB_INDEX(N), and nothing else
changes. -/
def Obligations.SelectOfNoMailboxFaults : Prop :=
  ∀ (s : State) (v : Byte), s.fault = none → 6 ≤ (v.extractLsb' 4 3).toNat →
    exec (.wrPage v) s = .next (withFault s (.mobIndex (0#5 ++ v.extractLsb' 4 3)))

/-- 40 R124: select B, any transactions that do not select A and no receive of which matches, select
A again: A's identifier, mask, mode, length and index are in the shadow registers as before, and A's
data bytes are unchanged. That no receive matched is said by the events appended: no RxMatched. -/
def Obligations.ContextSwitchRoundTrip : Prop :=
  ∀ (s t : State) (vb va : Byte) (is : List Instr) (es : List Event),
    (vb.extractLsb' 4 3).toNat ≠ s.cur.val → (va.extractLsb' 4 3).toNat = s.cur.val →
    (∀ v, Instr.wrPage v ∈ is → (v.extractLsb' 4 3).toNat ≠ s.cur.val) →
    runInstrs (.wrPage vb :: is ++ [.wrPage va]) s = .next t → t.fault = none →
    t.hist = s.hist ++ es → (∀ m f, Event.rxMatched m f ∉ es) →
    t.cur = s.cur ∧ t.idt1 = s.idt1 ∧ t.idt2.extractLsb' 5 3 = s.idt2.extractLsb' 5 3 ∧
      t.idm1 = s.idm1 ∧ t.idm2.extractLsb' 5 3 = s.idm2.extractLsb' 5 3 ∧
      t.cdmob.extractLsb' 6 2 = s.cdmob.extractLsb' 6 2 ∧
      t.cdmob.extractLsb' 0 4 = s.cdmob.extractLsb' 0 4 ∧
      t.page.extractLsb' 0 3 = s.page.extractLsb' 0 3 ∧
      (t.mailbox s.cur).data = (s.mailbox s.cur).data

/-! ### Configuration writes -/

/-- 40 R104, R105, R107, R108: a configuration write with mode DIS, RX or RXB and a length of 0 to 8
commits and does nothing more; with a length of 9 to 15 it raises FAULT_DLC(V) and does nothing
else. -/
def Obligations.ConfigurationWritesCommit : Prop :=
  ∀ (s : State) (x : BitVec 2) (l : DataLength), s.fault = none →
    ∀ im ∈ [(Instr.wrCdmobDis x l, Mode.dis), (Instr.wrCdmobRx x l, Mode.rx),
      (Instr.wrCdmobRxb x l, Mode.rxb)],
      HasKindSel im.1 0 1 ∧ ((encode im.1).1).extractLsb' 6 2 = im.2.code ∧
      (l.toNat ≤ 8 → ∃ t, exec im.1 s = .next t ∧ Committed s t im.2 x l ∧
        t = { s with mob := t.mob, cdmob := t.cdmob }) ∧
      (8 < l.toNat → exec im.1 s = .next (withFault s (.dlc (im.2.code ++ x ++ l))))

/-- 40 R106, 41 R147: a transmit write with a bridge and room in the queue commits, sets `txbsy`,
emits Transmit and TxQueued, and appends the frame with the identifier and the length just
committed and the data bytes as they stand. -/
def Obligations.TransmitQueuesTheCommittedFrame : Prop :=
  ∀ (s : State) (x : BitVec 2) (l : DataLength), s.fault = none → l.toNat ≤ 8 →
    s.cfg.bridgePresent = true → s.txq.length < s.cfg.txqDepth →
    let f : WireFrame :=
      { id := s.idt1 ++ s.idt2.extractLsb' 5 3, dlc := l, data := (s.mailbox s.cur).data }
    HasKindSel (.wrCdmobTx x l) 0 1 ∧
    ∃ t, exec (.wrCdmobTx x l) s = .next t ∧ Committed s t .tx x l ∧ t.txbsy = true ∧
      t.txq = s.txq ++ [⟨s.cur, f⟩] ∧
      t.hist = s.hist ++ [.transmit s.cur, .txQueued s.cur f] ∧
      t = { s with
        mob := t.mob, cdmob := t.cdmob, txbsy := t.txbsy, txq := t.txq, hist := t.hist }

/-- 41 R152, 40 R106: without a bridge a transmit write never holds: it commits, sets `txbsy`, emits
Transmit and TxDropped, and queues nothing. -/
def Obligations.TransmitWithoutBridgeDropsTheFrame : Prop :=
  ∀ (s : State) (x : BitVec 2) (l : DataLength), s.fault = none → l.toNat ≤ 8 →
    s.cfg.bridgePresent = false →
    let f : WireFrame :=
      { id := s.idt1 ++ s.idt2.extractLsb' 5 3, dlc := l, data := (s.mailbox s.cur).data }
    ∃ t, exec (.wrCdmobTx x l) s = .next t ∧ Committed s t .tx x l ∧ t.txbsy = true ∧
      t.hist = s.hist ++ [.transmit s.cur, .txDropped s.cur f] ∧
      t = { s with mob := t.mob, cdmob := t.cdmob, txbsy := t.txbsy, hist := t.hist }

/-- 40 R106, 60 R182, R195: a transmit write with a length of 9 to 15 raises FAULT_DLC(V), at a full
queue too: the check comes before the hold. With a legal length, a bridge and a full queue it
changes nothing. -/
def Obligations.TransmitChecksLengthBeforeItHolds : Prop :=
  ∀ (s : State) (x : BitVec 2) (l : DataLength), s.fault = none →
    (8 < l.toNat →
      exec (.wrCdmobTx x l) s = .next (withFault s (.dlc (1#2 ++ x ++ l)))) ∧
    (l.toNat ≤ 8 → s.cfg.bridgePresent = true → s.cfg.txqDepth ≤ s.txq.length →
      exec (.wrCdmobTx x l) s = .next s)

/-- 41 R148, 70 R226: a transmit write that holds takes its step once a TXPOP has taken a frame: in
every state whose queue respects its bound. -/
def Obligations.PopReleasesAHeldTransmit : Prop :=
  ∀ (s : State) (res : WriteResult) (m : Byte) (x : BitVec 2) (l : DataLength),
    s.fault = none → s.cfg.bridgePresent = true → QueueLegal s →
    s.txq.length = s.cfg.txqDepth → res ≠ .error → (∃ e ∈ s.txq, e.m.val = m.toNat) →
    l.toNat ≤ 8 →
    ∃ t u, exec (.hostTxpop res m) s = .next t ∧ exec (.wrCdmobTx x l) t = .next u ∧
      u.txbsy = true ∧ u.txq.length = s.cfg.txqDepth ∧
      ∃ f, u.hist = t.hist ++ [.transmit s.cur, .txQueued s.cur f]

/-- The source's first testable property (spec/95 S1), 40 R104, R106, 41 R141: a Send-lookup after a
configuration write, the transmit write with room in the queue included, returns the identifier, the
length and the data just written. -/
def Obligations.SendAfterCommitReturnsWhatWasWritten : Prop :=
  ∀ (s : State) (x : BitVec 2) (l : DataLength) (m : Byte) (i : Instr), s.fault = none →
    s.cfg.bridgePresent = true → l.toNat ≤ 8 → m.toNat = s.cur.val →
    (i ∈ [Instr.wrCdmobDis x l, Instr.wrCdmobRx x l, Instr.wrCdmobRxb x l] ∨
      i = .wrCdmobTx x l ∧ s.txq.length < s.cfg.txqDepth) →
    ∃ t u, exec i s = .next t ∧ exec (.hostSend m) t = .next u ∧
      u.lookupFrame = some
        { id := s.idt1 ++ s.idt2.extractLsb' 5 3, dlc := l, data := (s.mailbox s.cur).data }

/-! ### Data, identifier and mask writes -/

/-- 40 R110: WR.MSG stores the byte at the shadow index of the current mailbox, whatever its mode,
and with `ainc_en` advances the index by one modulo 8; nothing else changes. -/
def Obligations.DataWriteStoresAndAdvances : Prop :=
  ∀ (s : State) (v : Byte), s.fault = none →
    HasKindSel (.wrMsg v) 0 2 ∧
    ∃ t, exec (.wrMsg v) s = .next t ∧
      (∀ i : Fin 8, (t.mailbox s.cur).data[i] =
        if i.val = (s.page.extractLsb' 0 3).toNat then v else (s.mailbox s.cur).data[i]) ∧
      t.mailbox s.cur = { s.mailbox s.cur with data := (t.mailbox s.cur).data } ∧
      (∀ m, m ≠ s.cur → t.mailbox m = s.mailbox m) ∧
      (t.page.extractLsb' 0 3).toNat =
        (if AincEnabled s then ((s.page.extractLsb' 0 3).toNat + 1) % 8
          else (s.page.extractLsb' 0 3).toNat) ∧
      t.page.extractLsb' 3 5 = s.page.extractLsb' 3 5 ∧
      t = { s with mob := t.mob, page := t.page }

/-- 40 R122: after k data writes with `ainc_en` the index is i0 + k modulo 8, and each of the last
eight bytes written is where its own index says. -/
def Obligations.DataWritesWrapModuloEight : Prop :=
  ∀ (s : State) (vs : List Byte), s.fault = none → AincEnabled s →
    ∃ t, runInstrs (vs.map Instr.wrMsg) s = .next t ∧
      (t.page.extractLsb' 0 3).toNat = ((s.page.extractLsb' 0 3).toNat + vs.length) % 8 ∧
      ∀ (j : Nat) (hj : j < vs.length), vs.length ≤ j + 8 →
        ∀ i : Fin 8, i.val = ((s.page.extractLsb' 0 3).toNat + j) % 8 →
          (t.mailbox s.cur).data[i] = vs[j]

/-- 40 R111 to R114: a write of IDT1, IDT2, IDM1 or IDM2 stores the byte in its register, and
nothing else changes: the bank in particular. -/
def Obligations.IdAndMaskWritesStoreTheByte : Prop :=
  ∀ (s : State) (v : Byte), s.fault = none →
    (HasKindSel (.wrIdt1 v) 0 3 ∧ exec (.wrIdt1 v) s = .next { s with idt1 := v }) ∧
    (HasKindSel (.wrIdt2 v) 0 4 ∧ exec (.wrIdt2 v) s = .next { s with idt2 := v }) ∧
    (HasKindSel (.wrIdm1 v) 0 5 ∧ exec (.wrIdm1 v) s = .next { s with idm1 := v }) ∧
    (HasKindSel (.wrIdm2 v) 0 6 ∧ exec (.wrIdm2 v) s = .next { s with idm2 := v })

/-! ### Reads -/

/-- 40 R115, R116, R118 to R121: a read returns the shadow byte to the program (kept in a field of
the model's, log 10), and nothing else changes. -/
def Obligations.ReadsReturnTheShadowByte : Prop :=
  ∀ s : State, s.fault = none →
    (HasKindSel .rdPage 1 0 ∧ exec .rdPage s = .next { s with progByte := some s.page }) ∧
    (HasKindSel .rdCdmob 1 1 ∧ exec .rdCdmob s = .next { s with progByte := some s.cdmob }) ∧
    (HasKindSel .rdIdt1 1 3 ∧ exec .rdIdt1 s = .next { s with progByte := some s.idt1 }) ∧
    (HasKindSel .rdIdt2 1 4 ∧ exec .rdIdt2 s = .next { s with progByte := some s.idt2 }) ∧
    (HasKindSel .rdIdm1 1 5 ∧ exec .rdIdm1 s = .next { s with progByte := some s.idm1 }) ∧
    (HasKindSel .rdIdm2 1 6 ∧ exec .rdIdm2 s = .next { s with progByte := some s.idm2 })

/-- 40 R117: a read of MSG returns a byte, of which nothing is said, and changes no state of the
block: not the index either. The counter of draws is the model's own (log 5), and so is the field
that keeps the byte returned (log 10). -/
def Obligations.DataReadReturnsSomeByte : Prop :=
  ∀ s : State, s.fault = none → HasKindSel .rdMsg 1 2 ∧
    ∃ (b : Byte) (n : Nat), exec .rdMsg s = .next { s with progByte := some b, draws := n }

/-! ### Host requests -/

/-- 41 R141, R147: SEND with an index of 0 to 5 returns that mailbox's identifier, length and data
from the bank (kept in a field of the model's, log 10) and writes no state and no event; with an
index of 6 or more it raises FAULT_MOB_INDEX(M). -/
def Obligations.SendReturnsTheBankFrame : Prop :=
  ∀ (s : State) (m : Byte), s.fault = none → s.cfg.bridgePresent = true →
    HasKindSel (.hostSend m) 2 0 ∧
    (∀ n : MobId, m.toNat = n.val → exec (.hostSend m) s = .next { s with
      lookupFrame := some
        { id := (s.mailbox n).id, dlc := (s.mailbox n).dlc, data := (s.mailbox n).data } }) ∧
    (6 ≤ m.toNat → exec (.hostSend m) s = .next (withFault s (.mobIndex m)))

/-- 41 R142, R143, R144: RECEIVE delivers to the lowest mailbox that accepts the identifier: bytes
below the length, the length, the shared IDT registers, RxMatched and the matched index (log 10);
bytes from the length on are left open (log 5), and nothing else changes. -/
def Obligations.ReceiveDeliversToTheLowestMatch : Prop :=
  ∀ (s : State) (id : Ident) (l : DataLength) (d : Payload) (m : MobId), s.fault = none →
    s.cfg.bridgePresent = true → l.toNat ≤ 8 → Accepts (s.mailbox m) id →
    (∀ k, k < m → ¬ Accepts (s.mailbox k) id) →
    HasKindSel (.hostReceive id l d) 2 1 ∧
    ∃ t, exec (.hostReceive id l d) s = .next t ∧
      (∀ i : Fin 8, i.val < l.toNat → (t.mailbox m).data[i] = d[i]) ∧
      t.mailbox m = { s.mailbox m with dlc := l, data := (t.mailbox m).data } ∧
      (∀ k, k ≠ m → t.mailbox k = s.mailbox k) ∧
      t.idt1 = id.extractLsb' 3 8 ∧ t.idt2 = id.extractLsb' 0 3 ++ 0#5 ∧
      t.hrxResult = some (.matched m) ∧ t.hist = s.hist ++ [.rxMatched m ⟨id, l, d⟩] ∧
      t = { s with
        mob := t.mob, idt1 := t.idt1, idt2 := t.idt2, hrxResult := t.hrxResult, hist := t.hist,
        draws := t.draws }

/-- 41 R145, R146 (b): when no mailbox accepts the identifier, RECEIVE returns NOMATCH (kept in a
field of the model's, log 10), appends RxNoMatch and changes nothing else; so it is for every
identifier when no mailbox is in mode RX. -/
def Obligations.ReceiveWithoutMatchChangesNothing : Prop :=
  ∀ (s : State) (id : Ident) (l : DataLength) (d : Payload), s.fault = none →
    s.cfg.bridgePresent = true → l.toNat ≤ 8 →
    ((∀ m, ¬ Accepts (s.mailbox m) id) ∨ ∀ m, (s.mailbox m).mode ≠ .rx) →
    exec (.hostReceive id l d) s = .next { s with
      hrxResult := some .noMatch, hist := s.hist ++ [.rxNoMatch ⟨id, l, d⟩] }

/-- 41 R146 (a): if mailboxes j < k both match, k is left unchanged, and the mailbox delivered to is
j or one below it. -/
def Obligations.ReceiveLeavesHigherMatchesUnchanged : Prop :=
  ∀ (s t : State) (id : Ident) (l : DataLength) (d : Payload) (j k : MobId), j < k →
    Accepts (s.mailbox j) id → Accepts (s.mailbox k) id →
    exec (.hostReceive id l d) s = .next t →
    t.mailbox k = s.mailbox k ∧ ∃ w, w ≤ j ∧ t.hrxResult = some (.matched w)

/-- 41 R149, R150, R151: TXPOP takes the oldest entry of its mailbox, the others keeping their
order; ok emits TxWritten, short emits TxShortWrite, both clear `txbsy` only under on_drain and an
emptied queue, and the frame is returned (log 10) and is what the host serializes for its endpoint,
which a SEND does not change; error raises FAULT_HOST_WRITE(M). With no entry of the mailbox TXPOP
has no step, which the model's exec answers with the state unchanged (log 7). -/
def Obligations.PopTakesTheOldestOfItsMailbox : Prop :=
  ∀ (s : State) (m : Byte), s.fault = none → s.cfg.bridgePresent = true →
    (∀ res, HasKindSel (.hostTxpop res m) 2 2) ∧
    (∀ (older younger : List TxEntry) (e : TxEntry), s.txq = older ++ e :: younger →
      e.m.val = m.toNat → (∀ x ∈ older, x.m.val ≠ m.toNat) →
      (∀ re ∈ [(WriteResult.ok, Event.txWritten e.m e.frame),
          (WriteResult.short, Event.txShortWrite e.m e.frame)],
        exec (.hostTxpop re.1 m) s = .next { s with
          txq := older ++ younger
          txbsy := if s.cfg.txbsyClear = .onDrain ∧ older ++ younger = [] then false else s.txbsy
          hist := s.hist ++ [re.2]
          takenFrame := some e.frame } ∧
        ∀ t, exec (.hostTxpop re.1 m) s = .next t →
          t.endpointBytes = some (serialize s.cfg.hostByteOrder e.frame)) ∧
      exec (.hostTxpop .error m) s = .next (withFault s (.hostWrite m))) ∧
    (∀ k t, exec (.hostSend k) s = .next t → t.endpointBytes = s.endpointBytes) ∧
    ((∀ e ∈ s.txq, e.m.val ≠ m.toNat) → ∀ res, exec (.hostTxpop res m) s = .next s)

/-- 41 R153, 20 R67: the frames of one mailbox leave the queue in the order of the transmit writes
that captured them: every transaction leaves a mailbox's entries as they are, appends one at the
end (a transmit write, the mailbox current), or takes the first (a TXPOP of that mailbox, which
returns its frame). -/
def Obligations.FramesOfOneMailboxStayInOrder : Prop :=
  ∀ (i : Instr) (s t : State) (m : MobId), exec i s = .next t →
    t.queueOf m = s.queueOf m ∨
      (∃ x l f, i = .wrCdmobTx x l ∧ m = s.cur ∧ t.queueOf m = s.queueOf m ++ [⟨m, f⟩]) ∨
      ∃ res k e, i = .hostTxpop res k ∧ k.toNat = m.val ∧ s.queueOf m = e :: t.queueOf m ∧
        t.takenFrame = some e.frame

/-- 41 R140 (c), R152: without a bridge no host request occurs: each is refused, a dropped frame
too. The refusal's form is the model's choice (log 9). -/
def Obligations.NoHostRequestWithoutBridge : Prop :=
  ∀ (s : State), s.fault = none → s.cfg.bridgePresent = false →
    (∀ m, exec (.hostSend m) s = .refused .noBridge) ∧
    (∀ id l d, exec (.hostReceive id l d) s = .refused .noBridge) ∧
    (∀ res m, exec (.hostTxpop res m) s = .refused .noBridge) ∧
    ∀ b, s.dropFrame b = .refused .noBridge

/-! ### Serializer and deserializer -/

/-- 41 R160: the sixteen bytes of a serialized frame: the identifier word in the host's byte order,
the length, three zero bytes, the eight data bytes. -/
def Obligations.SerializedLayout : Prop :=
  ∀ (f : WireFrame),
    (∀ o, (serialize o f).length = 16) ∧
    (serialize .little f).take 4 = [f.id.extractLsb' 0 8, 0#5 ++ f.id.extractLsb' 8 3, 0, 0] ∧
    (serialize .big f).take 4 = [0, 0, 0#5 ++ f.id.extractLsb' 8 3, f.id.extractLsb' 0 8] ∧
    ∀ o, ((serialize o f).drop 4).take 4 = [0#4 ++ f.dlc, 0, 0, 0] ∧
      ∀ i : Fin 8, (serialize o f)[8 + i.val]? = some f.data[i]

/-- 41 R164: a serialized frame of length 0 to 8 is received as that frame; and sixteen bytes whose
identifier word has bits 31:11 zero and whose bytes 5 to 7 are zero, once received, serialize to the
same bytes. -/
def Obligations.SerializerRoundTrips : Prop :=
  (∀ (o : ByteOrder) (f : WireFrame), f.dlc.toNat ≤ 8 →
    deserialize o (serialize o f) = some f) ∧
  ∀ (o : ByteOrder) (b0 b1 b2 b3 n : Byte) (d : Payload), n.toNat ≤ 8 →
    (word32 o b0 b1 b2 b3).toNat < 2 ^ 11 →
    ∃ f, deserialize o ([b0, b1, b2, b3, n, 0, 0, 0] ++ d.toList) = some f ∧
      serialize o f = [b0, b1, b2, b3, n, 0, 0, 0] ++ d.toList

/-- 41 R162: sixteen bytes with a length byte of 0 to 8, read by the inbound loop, are one RECEIVE
of the low 11 bits of the identifier word, that length and the eight data bytes; the other bits of
the word and bytes 5 to 7 are ignored. That endpoint bytes are a request which the step presents as
a RECEIVE is log 12; the turn ended and the request taken are the model's own fields (log 6). -/
def Obligations.ReadFramesAreReceived : Prop :=
  ∀ (s : State) (ts : List Agent) (rest : List Request) (b0 b1 b2 b3 n p5 p6 p7 : Byte)
    (d : Payload), s.fault = none → s.turns = .hrx :: ts →
    s.inbox.hrx = .hostRead ([b0, b1, b2, b3, n, p5, p6, p7] ++ d.toList) :: rest →
    n.toNat ≤ 8 →
    step s = exec
      (.hostReceive
        (match s.cfg.hostByteOrder with
          | .little => b1.extractLsb' 0 3 ++ b0
          | .big => b2.extractLsb' 0 3 ++ b3)
        (n.extractLsb' 0 4) d)
      { s with turns := ts, inbox := { s.inbox with hrx := rest } }

/-- 41 R163: a read of fewer than 16 bytes, or one of 16 whose length byte is above 8, is dropped:
RxDropped with those bytes, no RECEIVE, and no other change but the turn and the request taken,
which are the model's own fields (log 6, 12). -/
def Obligations.BadFramesAreDropped : Prop :=
  ∀ (s : State) (ts : List Agent) (rest : List Request) (b : List Byte), s.fault = none →
    s.cfg.bridgePresent = true → s.turns = .hrx :: ts → s.inbox.hrx = .hostRead b :: rest →
    (b.length < 16 ∨ b.length = 16 ∧ ∃ n, b[4]? = some n ∧ 8 < n.toNat) →
    step s = .next { s with
      turns := ts, inbox := { s.inbox with hrx := rest }, hist := s.hist ++ [.rxDropped b] }

/-! ### Reset -/

/-- 70 R210, R211, 10 R44: RESET sets PAGE bit 3 so that `ainc_en` holds, emits Reset and changes
nothing else; a write of any byte to the reset-trigger register, when it exists, is the same. -/
def Obligations.DeviceResetRestoresAutoIncrement : Prop :=
  ∀ s : State, s.fault = none →
    HasKindSel .reset 3 0 ∧
    (∃ t, exec .reset s = .next t ∧ AincEnabled t ∧
      t.page.extractLsb' 4 4 = s.page.extractLsb' 4 4 ∧
      t.page.extractLsb' 0 3 = s.page.extractLsb' 0 3 ∧
      t = { s with page := t.page, hist := s.hist ++ [.deviceReset] }) ∧
    ∀ v, HasKindSel (.wrResetReg v) 0 7 ∧
      (s.cfg.resetTrigger.isSome = true →
        ∃ t, exec (.wrResetReg v) s = .next t ∧ exec .reset s = .next t)

/-- 70 R212: a RESET right after power-on, in its zero reading (log 4) and with the bridge started,
changes nothing but the history. -/
def Obligations.ResetAfterPowerOnChangesNothing : Prop :=
  ∀ p : Params, exec .reset (State.powerOn p none) =
    .next { State.powerOn p none with hist := [.deviceReset] }

/-! ### Invariants of every step -/

/-- 10 R41: every step keeps MOBNB equal to `cur`, `cur` within 0 to 5, and every length within 0 to
8. -/
def Obligations.StepKeepsTheRegisterInvariant : Prop :=
  ∀ s t : State, RegisterInvariant s → step s = .next t → RegisterInvariant t

/-- 40 R123: every step keeps R[CDMOB][7:6] equal to the current mailbox's mode. -/
def Obligations.StepKeepsTheModeAgreement : Prop :=
  ∀ s t : State, ModeAgrees s → step s = .next t → ModeAgrees t

/-- 10 R37, R38: every step keeps the queue within TXQ_DEPTH and its frames' lengths within 0 to
8. -/
def Obligations.StepKeepsTheQueueLegal : Prop :=
  ∀ s t : State, QueueLegal s → step s = .next t → QueueLegal t

/-- 41 R152: every step of a launch without a bridge keeps the queue empty. -/
def Obligations.StepKeepsTheQueueEmptyWithoutBridge : Prop :=
  ∀ s t : State, NoBridgeNoQueue s → step s = .next t → NoBridgeNoQueue t

/-! ### Rules of the whole machine -/

/-- 10 R40: `hist` is only ever appended to, by every step. -/
def Obligations.HistoryIsOnlyAppendedTo : Prop :=
  ∀ s t : State, step s = .next t → ∃ es, t.hist = s.hist ++ es

/-- 00 R10, 20 R60, R61: no step changes a parameter of the launch; a transaction itself does not
touch the agents' requests or turns, since taking it is the step's own part. -/
def Obligations.ParametersAndRequestsAreLeftAlone : Prop :=
  (∀ s t : State, step s = .next t → t.cfg = s.cfg) ∧
    ∀ (i : Instr) (s t : State), exec i s = .next t →
      t.cfg = s.cfg ∧ t.inbox = s.inbox ∧ t.turns = s.turns

/-- 10 R26: only the mailbox-select write changes `cur`, and only to the number it names, 0 to 5. -/
def Obligations.OnlySelectChangesTheCurrentMailbox : Prop :=
  ∀ (i : Instr) (s t : State), exec i s = .next t → t.cur ≠ s.cur →
    ∃ v, i = .wrPage v ∧ (v.extractLsb' 4 3).toNat = t.cur.val

/-- 40 R123: the mode of a mailbox changes only by a configuration write while it is current, to the
mode that write names. A snapshot never changes a mode: the states are those in which CDMOB agrees
with the current mailbox's mode, which every step keeps. -/
def Obligations.ModesChangeOnlyByCommit : Prop :=
  ∀ (i : Instr) (s t : State) (m : MobId), ModeAgrees s → exec i s = .next t →
    (t.mailbox m).mode ≠ (s.mailbox m).mode →
    m = s.cur ∧ ∃ x l, (i = .wrCdmobDis x l ∧ (t.mailbox m).mode = .dis) ∨
      (i = .wrCdmobTx x l ∧ (t.mailbox m).mode = .tx) ∨
      (i = .wrCdmobRx x l ∧ (t.mailbox m).mode = .rx) ∨
      (i = .wrCdmobRxb x l ∧ (t.mailbox m).mode = .rxb)

/-- 10 R27, 41 R144: a transaction changes a mailbox's bank slot only if it is the current mailbox
or the one a RECEIVE delivered to; and a mailbox's data bytes only by a data write while it is
current, or by that delivery. -/
def Obligations.BankChangesOnlyWhereItMay : Prop :=
  ∀ (i : Instr) (s t : State) (m : MobId), exec i s = .next t →
    (t.mailbox m ≠ s.mailbox m →
      m = s.cur ∨ ∃ id l d, i = .hostReceive id l d ∧ t.hrxResult = some (.matched m)) ∧
    ((t.mailbox m).data ≠ (s.mailbox m).data →
      (m = s.cur ∧ ∃ v, i = .wrMsg v) ∨
        ∃ id l d, i = .hostReceive id l d ∧ t.hrxResult = some (.matched m))

/-- 70 R223: the shadow index changes only by a data write, which advances it by one modulo 8, or by
a mailbox-select write, which loads the stored index of the mailbox. -/
def Obligations.IndexChangesOnlyByDataWriteOrLoad : Prop :=
  ∀ (i : Instr) (s t : State), exec i s = .next t →
    t.page.extractLsb' 0 3 ≠ s.page.extractLsb' 0 3 →
    (∃ v, i = .wrMsg v ∧
      (t.page.extractLsb' 0 3).toNat = ((s.page.extractLsb' 0 3).toNat + 1) % 8) ∨
      ∃ v, i = .wrPage v ∧ t.page.extractLsb' 0 3 = (t.mailbox t.cur).idx

/-- 10 R32, R33: who writes the shadow identifier and mask registers. -/
def Obligations.IdentifierRegisterWriters : Prop :=
  ∀ (i : Instr) (s t : State), exec i s = .next t →
    (t.idt1 ≠ s.idt1 ∨ t.idt2 ≠ s.idt2 →
      (∃ v, i = .wrIdt1 v ∨ i = .wrIdt2 v ∨ i = .wrPage v) ∨
        ∃ id l d m, i = .hostReceive id l d ∧ t.hrxResult = some (.matched m)) ∧
    (t.idm1 ≠ s.idm1 ∨ t.idm2 ≠ s.idm2 → ∃ v, i = .wrIdm1 v ∨ i = .wrIdm2 v ∨ i = .wrPage v)

/-- 10 R35, 41 R151, 70 R224: a step sets `txbsy` only by a transmit write, and clears it never
under TXBSY_CLEAR = never; under on_drain only a TXPOP that leaves the queue empty clears it. -/
def Obligations.BusyFlagPolicy : Prop :=
  ∀ (i : Instr) (s t : State), exec i s = .next t →
    (s.txbsy = false → t.txbsy = true → ∃ x l, i = .wrCdmobTx x l) ∧
    (s.txbsy = true → t.txbsy = false → s.cfg.txbsyClear = .onDrain ∧ t.txq = [] ∧
      ∃ res m, i = .hostTxpop res m ∧ res ≠ .error)

/-- 60 R180 to R183, R195: which transactions raise which fault; FAULT_MODE and FAULT_BRIDGE_INIT are
raised by none. -/
def Obligations.FaultsComeOnlyFromTheirCauses : Prop :=
  ∀ (i : Instr) (s t : State) (r : FaultReason), exec i s = .next t → t.fault = some r →
    (∃ v, i = .wrPage v ∧ 6 ≤ (v.extractLsb' 4 3).toNat ∧ r = .mobIndex (0#5 ++ v.extractLsb' 4 3)) ∨
    (∃ m, i = .hostSend m ∧ 6 ≤ m.toNat ∧ r = .mobIndex m) ∨
    (∃ m, i = .hostTxpop .error m ∧ (∃ e ∈ s.txq, e.m.val = m.toNat) ∧ r = .hostWrite m) ∨
    ∃ x l, 8 < l.toNat ∧
      ((i = .wrCdmobDis x l ∧ r = .dlc (0#2 ++ x ++ l)) ∨
        (i = .wrCdmobTx x l ∧ r = .dlc (1#2 ++ x ++ l)) ∨
        (i = .wrCdmobRx x l ∧ r = .dlc (2#2 ++ x ++ l)) ∨
        (i = .wrCdmobRxb x l ∧ r = .dlc (3#2 ++ x ++ l)))

/-- 60 R185, 40 R100 (b): a transaction that raises a fault changes nothing but `fault` and
`hist`, to which it appends that one Fault event. -/
def Obligations.FaultsArePrecise : Prop :=
  ∀ (i : Instr) (s t : State) (r : FaultReason), exec i s = .next t → t.fault = some r →
    t = withFault s r

/-! ### Hazards -/

/-- 70 R221: after a RECEIVE that matched any mailbox, the next commit or snapshot of the current
mailbox stores the received identifier as its identifier: a configuration write, a transmit write
with room in the queue, whose frame then goes out with the received identifier, or a mailbox-select
write. -/
def Obligations.ReceiveReplacesTheIdentifierToCommit : Prop :=
  ∀ (s t : State) (id : Ident) (l : DataLength) (d : Payload) (m : MobId) (x : BitVec 2)
    (k : DataLength), exec (.hostReceive id l d) s = .next t → t.hrxResult = some (.matched m) →
    (k.toNat ≤ 8 →
      (∀ i ∈ [Instr.wrCdmobDis x k, Instr.wrCdmobRx x k, Instr.wrCdmobRxb x k],
        ∃ u, exec i t = .next u ∧ (u.mailbox s.cur).id = id) ∧
      (s.txq.length < s.cfg.txqDepth →
        ∃ u f, exec (.wrCdmobTx x k) t = .next u ∧ (u.mailbox s.cur).id = id ∧ f.id = id ∧
          u.txq = s.txq ++ [⟨s.cur, f⟩])) ∧
    ∀ v : Byte, (v.extractLsb' 4 3).toNat < 6 →
      ∃ u, exec (.wrPage v) t = .next u ∧ (u.mailbox s.cur).id = id

/-- 70 R222: after a RECEIVE that matched the current mailbox, any legal mailbox-select write puts
the old shadow length back over the received one, and keeps the received data bytes. -/
def Obligations.SelectLosesTheReceivedLength : Prop :=
  ∀ (s t : State) (id : Ident) (l : DataLength) (d : Payload) (v : Byte),
    exec (.hostReceive id l d) s = .next t → t.hrxResult = some (.matched s.cur) →
    (v.extractLsb' 4 3).toNat < 6 →
    (t.mailbox s.cur).dlc = l ∧
    ∃ u, exec (.wrPage v) t = .next u ∧ (u.mailbox s.cur).dlc = s.cdmob.extractLsb' 0 4 ∧
      (u.mailbox s.cur).data = (t.mailbox s.cur).data
end

