-- ==== Sys2Proof/Laws/State.lean ====
section
/-! SUPPORT. One lemma per field per elementary update of State, true by rfl, and the lemmas of the
bank's read after write. -/

namespace Sys2Proof.Machine

/-! ### emit -/

@[simp] theorem State.emit_cfg (s : State) (e : Event) : (s.emit e).cfg = s.cfg := rfl
@[simp] theorem State.emit_mob (s : State) (e : Event) : (s.emit e).mob = s.mob := rfl
@[simp] theorem State.emit_cur (s : State) (e : Event) : (s.emit e).cur = s.cur := rfl
@[simp] theorem State.emit_page (s : State) (e : Event) : (s.emit e).page = s.page := rfl
@[simp] theorem State.emit_cdmob (s : State) (e : Event) : (s.emit e).cdmob = s.cdmob := rfl
@[simp] theorem State.emit_idt1 (s : State) (e : Event) : (s.emit e).idt1 = s.idt1 := rfl
@[simp] theorem State.emit_idt2 (s : State) (e : Event) : (s.emit e).idt2 = s.idt2 := rfl
@[simp] theorem State.emit_idm1 (s : State) (e : Event) : (s.emit e).idm1 = s.idm1 := rfl
@[simp] theorem State.emit_idm2 (s : State) (e : Event) : (s.emit e).idm2 = s.idm2 := rfl
@[simp] theorem State.emit_txbsy (s : State) (e : Event) : (s.emit e).txbsy = s.txbsy := rfl
@[simp] theorem State.emit_txq (s : State) (e : Event) : (s.emit e).txq = s.txq := rfl
@[simp] theorem State.emit_fault (s : State) (e : Event) : (s.emit e).fault = s.fault := rfl
@[simp] theorem State.emit_hist (s : State) (e : Event) : (s.emit e).hist = s.hist ++ [e] := rfl
@[simp] theorem State.emit_progByte (s : State) (e : Event) :
    (s.emit e).progByte = s.progByte := rfl
@[simp] theorem State.emit_takenFrame (s : State) (e : Event) :
    (s.emit e).takenFrame = s.takenFrame := rfl
@[simp] theorem State.emit_lookupFrame (s : State) (e : Event) :
    (s.emit e).lookupFrame = s.lookupFrame := rfl
@[simp] theorem State.emit_hrxResult (s : State) (e : Event) :
    (s.emit e).hrxResult = s.hrxResult := rfl
@[simp] theorem State.emit_draws (s : State) (e : Event) : (s.emit e).draws = s.draws := rfl
@[simp] theorem State.emit_inbox (s : State) (e : Event) : (s.emit e).inbox = s.inbox := rfl
@[simp] theorem State.emit_turns (s : State) (e : Event) : (s.emit e).turns = s.turns := rfl

/-! ### setMailbox -/

@[simp] theorem State.setMailbox_cfg (s : State) (m : MobId) (o : Mailbox) :
    (s.setMailbox m o).cfg = s.cfg := rfl
@[simp] theorem State.setMailbox_mob (s : State) (m : MobId) (o : Mailbox) :
    (s.setMailbox m o).mob = s.mob.set m o := rfl
@[simp] theorem State.setMailbox_cur (s : State) (m : MobId) (o : Mailbox) :
    (s.setMailbox m o).cur = s.cur := rfl
@[simp] theorem State.setMailbox_page (s : State) (m : MobId) (o : Mailbox) :
    (s.setMailbox m o).page = s.page := rfl
@[simp] theorem State.setMailbox_cdmob (s : State) (m : MobId) (o : Mailbox) :
    (s.setMailbox m o).cdmob = s.cdmob := rfl
@[simp] theorem State.setMailbox_idt1 (s : State) (m : MobId) (o : Mailbox) :
    (s.setMailbox m o).idt1 = s.idt1 := rfl
@[simp] theorem State.setMailbox_idt2 (s : State) (m : MobId) (o : Mailbox) :
    (s.setMailbox m o).idt2 = s.idt2 := rfl
@[simp] theorem State.setMailbox_idm1 (s : State) (m : MobId) (o : Mailbox) :
    (s.setMailbox m o).idm1 = s.idm1 := rfl
@[simp] theorem State.setMailbox_idm2 (s : State) (m : MobId) (o : Mailbox) :
    (s.setMailbox m o).idm2 = s.idm2 := rfl
@[simp] theorem State.setMailbox_txbsy (s : State) (m : MobId) (o : Mailbox) :
    (s.setMailbox m o).txbsy = s.txbsy := rfl
@[simp] theorem State.setMailbox_txq (s : State) (m : MobId) (o : Mailbox) :
    (s.setMailbox m o).txq = s.txq := rfl
@[simp] theorem State.setMailbox_fault (s : State) (m : MobId) (o : Mailbox) :
    (s.setMailbox m o).fault = s.fault := rfl
@[simp] theorem State.setMailbox_hist (s : State) (m : MobId) (o : Mailbox) :
    (s.setMailbox m o).hist = s.hist := rfl
@[simp] theorem State.setMailbox_progByte (s : State) (m : MobId) (o : Mailbox) :
    (s.setMailbox m o).progByte = s.progByte := rfl
@[simp] theorem State.setMailbox_takenFrame (s : State) (m : MobId) (o : Mailbox) :
    (s.setMailbox m o).takenFrame = s.takenFrame := rfl
@[simp] theorem State.setMailbox_lookupFrame (s : State) (m : MobId) (o : Mailbox) :
    (s.setMailbox m o).lookupFrame = s.lookupFrame := rfl
@[simp] theorem State.setMailbox_hrxResult (s : State) (m : MobId) (o : Mailbox) :
    (s.setMailbox m o).hrxResult = s.hrxResult := rfl
@[simp] theorem State.setMailbox_draws (s : State) (m : MobId) (o : Mailbox) :
    (s.setMailbox m o).draws = s.draws := rfl
@[simp] theorem State.setMailbox_inbox (s : State) (m : MobId) (o : Mailbox) :
    (s.setMailbox m o).inbox = s.inbox := rfl
@[simp] theorem State.setMailbox_turns (s : State) (m : MobId) (o : Mailbox) :
    (s.setMailbox m o).turns = s.turns := rfl

/-! ### returnByte -/

@[simp] theorem State.returnByte_cfg (s : State) (v : Byte) : (s.returnByte v).cfg = s.cfg := rfl
@[simp] theorem State.returnByte_mob (s : State) (v : Byte) : (s.returnByte v).mob = s.mob := rfl
@[simp] theorem State.returnByte_cur (s : State) (v : Byte) : (s.returnByte v).cur = s.cur := rfl
@[simp] theorem State.returnByte_page (s : State) (v : Byte) : (s.returnByte v).page = s.page := rfl
@[simp] theorem State.returnByte_cdmob (s : State) (v : Byte) :
    (s.returnByte v).cdmob = s.cdmob := rfl
@[simp] theorem State.returnByte_idt1 (s : State) (v : Byte) : (s.returnByte v).idt1 = s.idt1 := rfl
@[simp] theorem State.returnByte_idt2 (s : State) (v : Byte) : (s.returnByte v).idt2 = s.idt2 := rfl
@[simp] theorem State.returnByte_idm1 (s : State) (v : Byte) : (s.returnByte v).idm1 = s.idm1 := rfl
@[simp] theorem State.returnByte_idm2 (s : State) (v : Byte) : (s.returnByte v).idm2 = s.idm2 := rfl
@[simp] theorem State.returnByte_txbsy (s : State) (v : Byte) :
    (s.returnByte v).txbsy = s.txbsy := rfl
@[simp] theorem State.returnByte_txq (s : State) (v : Byte) : (s.returnByte v).txq = s.txq := rfl
@[simp] theorem State.returnByte_fault (s : State) (v : Byte) :
    (s.returnByte v).fault = s.fault := rfl
@[simp] theorem State.returnByte_hist (s : State) (v : Byte) : (s.returnByte v).hist = s.hist := rfl
@[simp] theorem State.returnByte_progByte (s : State) (v : Byte) :
    (s.returnByte v).progByte = some v := rfl
@[simp] theorem State.returnByte_takenFrame (s : State) (v : Byte) :
    (s.returnByte v).takenFrame = s.takenFrame := rfl
@[simp] theorem State.returnByte_lookupFrame (s : State) (v : Byte) :
    (s.returnByte v).lookupFrame = s.lookupFrame := rfl
@[simp] theorem State.returnByte_hrxResult (s : State) (v : Byte) :
    (s.returnByte v).hrxResult = s.hrxResult := rfl
@[simp] theorem State.returnByte_draws (s : State) (v : Byte) :
    (s.returnByte v).draws = s.draws := rfl
@[simp] theorem State.returnByte_inbox (s : State) (v : Byte) :
    (s.returnByte v).inbox = s.inbox := rfl
@[simp] theorem State.returnByte_turns (s : State) (v : Byte) :
    (s.returnByte v).turns = s.turns := rfl

/-! ### returnDraw -/

@[simp] theorem State.returnDraw_cfg (s : State) : (s.returnDraw).cfg = s.cfg := rfl
@[simp] theorem State.returnDraw_mob (s : State) : (s.returnDraw).mob = s.mob := rfl
@[simp] theorem State.returnDraw_cur (s : State) : (s.returnDraw).cur = s.cur := rfl
@[simp] theorem State.returnDraw_page (s : State) : (s.returnDraw).page = s.page := rfl
@[simp] theorem State.returnDraw_cdmob (s : State) : (s.returnDraw).cdmob = s.cdmob := rfl
@[simp] theorem State.returnDraw_idt1 (s : State) : (s.returnDraw).idt1 = s.idt1 := rfl
@[simp] theorem State.returnDraw_idt2 (s : State) : (s.returnDraw).idt2 = s.idt2 := rfl
@[simp] theorem State.returnDraw_idm1 (s : State) : (s.returnDraw).idm1 = s.idm1 := rfl
@[simp] theorem State.returnDraw_idm2 (s : State) : (s.returnDraw).idm2 = s.idm2 := rfl
@[simp] theorem State.returnDraw_txbsy (s : State) : (s.returnDraw).txbsy = s.txbsy := rfl
@[simp] theorem State.returnDraw_txq (s : State) : (s.returnDraw).txq = s.txq := rfl
@[simp] theorem State.returnDraw_fault (s : State) : (s.returnDraw).fault = s.fault := rfl
@[simp] theorem State.returnDraw_hist (s : State) : (s.returnDraw).hist = s.hist := rfl
@[simp] theorem State.returnDraw_progByte (s : State) :
    (s.returnDraw).progByte = some (Config.draw8 s.draws) := rfl
@[simp] theorem State.returnDraw_takenFrame (s : State) :
    (s.returnDraw).takenFrame = s.takenFrame := rfl
@[simp] theorem State.returnDraw_lookupFrame (s : State) :
    (s.returnDraw).lookupFrame = s.lookupFrame := rfl
@[simp] theorem State.returnDraw_hrxResult (s : State) :
    (s.returnDraw).hrxResult = s.hrxResult := rfl
@[simp] theorem State.returnDraw_draws (s : State) : (s.returnDraw).draws = s.draws + 1 := rfl
@[simp] theorem State.returnDraw_inbox (s : State) : (s.returnDraw).inbox = s.inbox := rfl
@[simp] theorem State.returnDraw_turns (s : State) : (s.returnDraw).turns = s.turns := rfl

/-! ### returnTaken -/

@[simp] theorem State.returnTaken_cfg (s : State) (f : WireFrame) :
    (s.returnTaken f).cfg = s.cfg := rfl
@[simp] theorem State.returnTaken_mob (s : State) (f : WireFrame) :
    (s.returnTaken f).mob = s.mob := rfl
@[simp] theorem State.returnTaken_cur (s : State) (f : WireFrame) :
    (s.returnTaken f).cur = s.cur := rfl
@[simp] theorem State.returnTaken_page (s : State) (f : WireFrame) :
    (s.returnTaken f).page = s.page := rfl
@[simp] theorem State.returnTaken_cdmob (s : State) (f : WireFrame) :
    (s.returnTaken f).cdmob = s.cdmob := rfl
@[simp] theorem State.returnTaken_idt1 (s : State) (f : WireFrame) :
    (s.returnTaken f).idt1 = s.idt1 := rfl
@[simp] theorem State.returnTaken_idt2 (s : State) (f : WireFrame) :
    (s.returnTaken f).idt2 = s.idt2 := rfl
@[simp] theorem State.returnTaken_idm1 (s : State) (f : WireFrame) :
    (s.returnTaken f).idm1 = s.idm1 := rfl
@[simp] theorem State.returnTaken_idm2 (s : State) (f : WireFrame) :
    (s.returnTaken f).idm2 = s.idm2 := rfl
@[simp] theorem State.returnTaken_txbsy (s : State) (f : WireFrame) :
    (s.returnTaken f).txbsy = s.txbsy := rfl
@[simp] theorem State.returnTaken_txq (s : State) (f : WireFrame) :
    (s.returnTaken f).txq = s.txq := rfl
@[simp] theorem State.returnTaken_fault (s : State) (f : WireFrame) :
    (s.returnTaken f).fault = s.fault := rfl
@[simp] theorem State.returnTaken_hist (s : State) (f : WireFrame) :
    (s.returnTaken f).hist = s.hist := rfl
@[simp] theorem State.returnTaken_progByte (s : State) (f : WireFrame) :
    (s.returnTaken f).progByte = s.progByte := rfl
@[simp] theorem State.returnTaken_takenFrame (s : State) (f : WireFrame) :
    (s.returnTaken f).takenFrame = some f := rfl
@[simp] theorem State.returnTaken_lookupFrame (s : State) (f : WireFrame) :
    (s.returnTaken f).lookupFrame = s.lookupFrame := rfl
@[simp] theorem State.returnTaken_hrxResult (s : State) (f : WireFrame) :
    (s.returnTaken f).hrxResult = s.hrxResult := rfl
@[simp] theorem State.returnTaken_draws (s : State) (f : WireFrame) :
    (s.returnTaken f).draws = s.draws := rfl
@[simp] theorem State.returnTaken_inbox (s : State) (f : WireFrame) :
    (s.returnTaken f).inbox = s.inbox := rfl
@[simp] theorem State.returnTaken_turns (s : State) (f : WireFrame) :
    (s.returnTaken f).turns = s.turns := rfl

/-! ### returnLookup -/

@[simp] theorem State.returnLookup_cfg (s : State) (f : WireFrame) :
    (s.returnLookup f).cfg = s.cfg := rfl
@[simp] theorem State.returnLookup_mob (s : State) (f : WireFrame) :
    (s.returnLookup f).mob = s.mob := rfl
@[simp] theorem State.returnLookup_cur (s : State) (f : WireFrame) :
    (s.returnLookup f).cur = s.cur := rfl
@[simp] theorem State.returnLookup_page (s : State) (f : WireFrame) :
    (s.returnLookup f).page = s.page := rfl
@[simp] theorem State.returnLookup_cdmob (s : State) (f : WireFrame) :
    (s.returnLookup f).cdmob = s.cdmob := rfl
@[simp] theorem State.returnLookup_idt1 (s : State) (f : WireFrame) :
    (s.returnLookup f).idt1 = s.idt1 := rfl
@[simp] theorem State.returnLookup_idt2 (s : State) (f : WireFrame) :
    (s.returnLookup f).idt2 = s.idt2 := rfl
@[simp] theorem State.returnLookup_idm1 (s : State) (f : WireFrame) :
    (s.returnLookup f).idm1 = s.idm1 := rfl
@[simp] theorem State.returnLookup_idm2 (s : State) (f : WireFrame) :
    (s.returnLookup f).idm2 = s.idm2 := rfl
@[simp] theorem State.returnLookup_txbsy (s : State) (f : WireFrame) :
    (s.returnLookup f).txbsy = s.txbsy := rfl
@[simp] theorem State.returnLookup_txq (s : State) (f : WireFrame) :
    (s.returnLookup f).txq = s.txq := rfl
@[simp] theorem State.returnLookup_fault (s : State) (f : WireFrame) :
    (s.returnLookup f).fault = s.fault := rfl
@[simp] theorem State.returnLookup_hist (s : State) (f : WireFrame) :
    (s.returnLookup f).hist = s.hist := rfl
@[simp] theorem State.returnLookup_progByte (s : State) (f : WireFrame) :
    (s.returnLookup f).progByte = s.progByte := rfl
@[simp] theorem State.returnLookup_takenFrame (s : State) (f : WireFrame) :
    (s.returnLookup f).takenFrame = s.takenFrame := rfl
@[simp] theorem State.returnLookup_lookupFrame (s : State) (f : WireFrame) :
    (s.returnLookup f).lookupFrame = some f := rfl
@[simp] theorem State.returnLookup_hrxResult (s : State) (f : WireFrame) :
    (s.returnLookup f).hrxResult = s.hrxResult := rfl
@[simp] theorem State.returnLookup_draws (s : State) (f : WireFrame) :
    (s.returnLookup f).draws = s.draws := rfl
@[simp] theorem State.returnLookup_inbox (s : State) (f : WireFrame) :
    (s.returnLookup f).inbox = s.inbox := rfl
@[simp] theorem State.returnLookup_turns (s : State) (f : WireFrame) :
    (s.returnLookup f).turns = s.turns := rfl

/-! ### faulted -/

@[simp] theorem State.faulted_cfg (s : State) (r : FaultReason) : (s.faulted r).cfg = s.cfg := rfl
@[simp] theorem State.faulted_mob (s : State) (r : FaultReason) : (s.faulted r).mob = s.mob := rfl
@[simp] theorem State.faulted_cur (s : State) (r : FaultReason) : (s.faulted r).cur = s.cur := rfl
@[simp] theorem State.faulted_page (s : State) (r : FaultReason) :
    (s.faulted r).page = s.page := rfl
@[simp] theorem State.faulted_cdmob (s : State) (r : FaultReason) :
    (s.faulted r).cdmob = s.cdmob := rfl
@[simp] theorem State.faulted_idt1 (s : State) (r : FaultReason) :
    (s.faulted r).idt1 = s.idt1 := rfl
@[simp] theorem State.faulted_idt2 (s : State) (r : FaultReason) :
    (s.faulted r).idt2 = s.idt2 := rfl
@[simp] theorem State.faulted_idm1 (s : State) (r : FaultReason) :
    (s.faulted r).idm1 = s.idm1 := rfl
@[simp] theorem State.faulted_idm2 (s : State) (r : FaultReason) :
    (s.faulted r).idm2 = s.idm2 := rfl
@[simp] theorem State.faulted_txbsy (s : State) (r : FaultReason) :
    (s.faulted r).txbsy = s.txbsy := rfl
@[simp] theorem State.faulted_txq (s : State) (r : FaultReason) : (s.faulted r).txq = s.txq := rfl
@[simp] theorem State.faulted_fault (s : State) (r : FaultReason) :
    (s.faulted r).fault = some r := rfl
@[simp] theorem State.faulted_hist (s : State) (r : FaultReason) :
    (s.faulted r).hist = s.hist ++ [.fault r] := rfl
@[simp] theorem State.faulted_progByte (s : State) (r : FaultReason) :
    (s.faulted r).progByte = s.progByte := rfl
@[simp] theorem State.faulted_takenFrame (s : State) (r : FaultReason) :
    (s.faulted r).takenFrame = s.takenFrame := rfl
@[simp] theorem State.faulted_lookupFrame (s : State) (r : FaultReason) :
    (s.faulted r).lookupFrame = s.lookupFrame := rfl
@[simp] theorem State.faulted_hrxResult (s : State) (r : FaultReason) :
    (s.faulted r).hrxResult = s.hrxResult := rfl
@[simp] theorem State.faulted_draws (s : State) (r : FaultReason) :
    (s.faulted r).draws = s.draws := rfl
@[simp] theorem State.faulted_inbox (s : State) (r : FaultReason) :
    (s.faulted r).inbox = s.inbox := rfl
@[simp] theorem State.faulted_turns (s : State) (r : FaultReason) :
    (s.faulted r).turns = s.turns := rfl

/-! ### passTurn -/

@[simp] theorem State.passTurn_cfg (s : State) : (s.passTurn).cfg = s.cfg := rfl
@[simp] theorem State.passTurn_mob (s : State) : (s.passTurn).mob = s.mob := rfl
@[simp] theorem State.passTurn_cur (s : State) : (s.passTurn).cur = s.cur := rfl
@[simp] theorem State.passTurn_page (s : State) : (s.passTurn).page = s.page := rfl
@[simp] theorem State.passTurn_cdmob (s : State) : (s.passTurn).cdmob = s.cdmob := rfl
@[simp] theorem State.passTurn_idt1 (s : State) : (s.passTurn).idt1 = s.idt1 := rfl
@[simp] theorem State.passTurn_idt2 (s : State) : (s.passTurn).idt2 = s.idt2 := rfl
@[simp] theorem State.passTurn_idm1 (s : State) : (s.passTurn).idm1 = s.idm1 := rfl
@[simp] theorem State.passTurn_idm2 (s : State) : (s.passTurn).idm2 = s.idm2 := rfl
@[simp] theorem State.passTurn_txbsy (s : State) : (s.passTurn).txbsy = s.txbsy := rfl
@[simp] theorem State.passTurn_txq (s : State) : (s.passTurn).txq = s.txq := rfl
@[simp] theorem State.passTurn_fault (s : State) : (s.passTurn).fault = s.fault := rfl
@[simp] theorem State.passTurn_hist (s : State) : (s.passTurn).hist = s.hist := rfl
@[simp] theorem State.passTurn_progByte (s : State) : (s.passTurn).progByte = s.progByte := rfl
@[simp] theorem State.passTurn_takenFrame (s : State) :
    (s.passTurn).takenFrame = s.takenFrame := rfl
@[simp] theorem State.passTurn_lookupFrame (s : State) :
    (s.passTurn).lookupFrame = s.lookupFrame := rfl
@[simp] theorem State.passTurn_hrxResult (s : State) : (s.passTurn).hrxResult = s.hrxResult := rfl
@[simp] theorem State.passTurn_draws (s : State) : (s.passTurn).draws = s.draws := rfl
@[simp] theorem State.passTurn_inbox (s : State) : (s.passTurn).inbox = s.inbox := rfl
@[simp] theorem State.passTurn_turns (s : State) : (s.passTurn).turns = s.turns.tail := rfl

/-! ### takeRequest -/

@[simp] theorem State.takeRequest_cfg (s : State) (a : Agent) : (s.takeRequest a).cfg = s.cfg := rfl
@[simp] theorem State.takeRequest_mob (s : State) (a : Agent) : (s.takeRequest a).mob = s.mob := rfl
@[simp] theorem State.takeRequest_cur (s : State) (a : Agent) : (s.takeRequest a).cur = s.cur := rfl
@[simp] theorem State.takeRequest_page (s : State) (a : Agent) :
    (s.takeRequest a).page = s.page := rfl
@[simp] theorem State.takeRequest_cdmob (s : State) (a : Agent) :
    (s.takeRequest a).cdmob = s.cdmob := rfl
@[simp] theorem State.takeRequest_idt1 (s : State) (a : Agent) :
    (s.takeRequest a).idt1 = s.idt1 := rfl
@[simp] theorem State.takeRequest_idt2 (s : State) (a : Agent) :
    (s.takeRequest a).idt2 = s.idt2 := rfl
@[simp] theorem State.takeRequest_idm1 (s : State) (a : Agent) :
    (s.takeRequest a).idm1 = s.idm1 := rfl
@[simp] theorem State.takeRequest_idm2 (s : State) (a : Agent) :
    (s.takeRequest a).idm2 = s.idm2 := rfl
@[simp] theorem State.takeRequest_txbsy (s : State) (a : Agent) :
    (s.takeRequest a).txbsy = s.txbsy := rfl
@[simp] theorem State.takeRequest_txq (s : State) (a : Agent) : (s.takeRequest a).txq = s.txq := rfl
@[simp] theorem State.takeRequest_fault (s : State) (a : Agent) :
    (s.takeRequest a).fault = s.fault := rfl
@[simp] theorem State.takeRequest_hist (s : State) (a : Agent) :
    (s.takeRequest a).hist = s.hist := rfl
@[simp] theorem State.takeRequest_progByte (s : State) (a : Agent) :
    (s.takeRequest a).progByte = s.progByte := rfl
@[simp] theorem State.takeRequest_takenFrame (s : State) (a : Agent) :
    (s.takeRequest a).takenFrame = s.takenFrame := rfl
@[simp] theorem State.takeRequest_lookupFrame (s : State) (a : Agent) :
    (s.takeRequest a).lookupFrame = s.lookupFrame := rfl
@[simp] theorem State.takeRequest_hrxResult (s : State) (a : Agent) :
    (s.takeRequest a).hrxResult = s.hrxResult := rfl
@[simp] theorem State.takeRequest_draws (s : State) (a : Agent) :
    (s.takeRequest a).draws = s.draws := rfl
@[simp] theorem State.takeRequest_inbox (s : State) (a : Agent) :
    (s.takeRequest a).inbox = s.inbox.put a (s.inbox.of a).tail := rfl
@[simp] theorem State.takeRequest_turns (s : State) (a : Agent) :
    (s.takeRequest a).turns = s.turns.tail := rfl

/-! ### The bank -/

@[simp] theorem State.mailbox_setMailbox_self (s : State) (m : MobId) (o : Mailbox) :
    (s.setMailbox m o).mailbox m = o := by
  simp [State.mailbox]

theorem State.mailbox_setMailbox_of_ne (s : State) {m k : MobId} (o : Mailbox) (h : k ≠ m) :
    (s.setMailbox m o).mailbox k = s.mailbox k := by
  have hv : m.val ≠ k.val := fun hc => h (Fin.ext hc.symm)
  simp [State.mailbox, Vector.getElem_set_ne, hv]

theorem State.mailbox_setMailbox (s : State) (m k : MobId) (o : Mailbox) :
    (s.setMailbox m o).mailbox k = if k = m then o else s.mailbox k := by
  by_cases h : k = m
  · subst h; simp
  · simp [h, State.mailbox_setMailbox_of_ne]

/-- The bank is read through `mob` alone. -/
theorem State.mailbox_congr {s t : State} (h : s.mob = t.mob) (m : MobId) :
    s.mailbox m = t.mailbox m := by
  simp [State.mailbox, h]

@[simp] theorem State.emit_mailbox (s : State) (e : Event) (k : MobId) :
    (s.emit e).mailbox k = s.mailbox k := rfl
@[simp] theorem State.returnByte_mailbox (s : State) (v : Byte) (k : MobId) :
    (s.returnByte v).mailbox k = s.mailbox k := rfl
@[simp] theorem State.returnDraw_mailbox (s : State) (k : MobId) :
    (s.returnDraw).mailbox k = s.mailbox k := rfl
@[simp] theorem State.returnTaken_mailbox (s : State) (f : WireFrame) (k : MobId) :
    (s.returnTaken f).mailbox k = s.mailbox k := rfl
@[simp] theorem State.returnLookup_mailbox (s : State) (f : WireFrame) (k : MobId) :
    (s.returnLookup f).mailbox k = s.mailbox k := rfl
@[simp] theorem State.faulted_mailbox (s : State) (r : FaultReason) (k : MobId) :
    (s.faulted r).mailbox k = s.mailbox k := rfl
@[simp] theorem State.passTurn_mailbox (s : State) (k : MobId) :
    (s.passTurn).mailbox k = s.mailbox k := rfl
@[simp] theorem State.takeRequest_mailbox (s : State) (a : Agent) (k : MobId) :
    (s.takeRequest a).mailbox k = s.mailbox k := rfl

/-! ### The inboxes -/

@[simp] theorem Inbox.of_put_self (b : Inbox) (a : Agent) (l : List Request) :
    (b.put a l).of a = l := by
  cases a <;> rfl

theorem Inbox.of_put_of_ne (b : Inbox) {a c : Agent} (l : List Request) (h : c ≠ a) :
    (b.put a l).of c = b.of c := by
  cases a <;> cases c <;> first | rfl | exact absurd rfl h

end Sys2Proof.Machine
end

