-- ==== Sys2Proof/Laws/Operands.lean ====
section
/-! SUPPORT. The value of each packing and field function as a number, and the small laws of the
register fields that follow. -/

namespace Sys2Proof.Machine

theorem toNat_append_add {m n : Nat} (x : BitVec m) (y : BitVec n) :
    (x ++ y).toNat = x.toNat * 2 ^ n + y.toNat := by
  rw [BitVec.toNat_append, ← Nat.shiftLeft_add_eq_or_of_lt y.isLt, Nat.shiftLeft_eq]

theorem toNat_extract {w : Nat} (s n : Nat) (x : BitVec w) :
    (x.extractLsb' s n).toNat = x.toNat / 2 ^ s % 2 ^ n := by
  simp [BitVec.extractLsb'_toNat, Nat.shiftRight_eq_div_pow]

/-! ### Packing (00 R13) -/

theorem recon_toNat (hi lo : Byte) : (recon hi lo).toNat = hi.toNat * 8 + lo.toNat / 32 := by
  rw [recon, toNat_append_add, toNat_extract]
  have := lo.isLt
  omega

theorem splitHi_toNat (v : Ident) : (splitHi v).toNat = v.toNat / 8 := by
  rw [splitHi, toNat_extract]
  have := v.isLt
  omega

theorem splitLo_toNat (v : Ident) : (splitLo v).toNat = v.toNat % 8 * 32 := by
  rw [splitLo, toNat_append_add, toNat_extract]
  simp

/-! ### PAGE (10 R29) -/

theorem pageSpare_toNat (v : Byte) : (pageSpare v).toNat = v.toNat / 128 := by
  rw [pageSpare, toNat_extract]
  have := v.isLt
  omega

theorem pageMobnb_toNat (v : Byte) : (pageMobnb v).toNat = v.toNat / 16 % 8 := by
  rw [pageMobnb, toNat_extract]
  norm_num

theorem pageAinc_toNat (v : Byte) : (pageAinc v).toNat = v.toNat / 8 % 2 := by
  rw [pageAinc, toNat_extract]
  norm_num

theorem pageIndx_toNat (v : Byte) : (pageIndx v).toNat = v.toNat % 8 := by
  rw [pageIndx, toNat_extract]
  simp

theorem pageByte_toNat (s : BitVec 1) (n : BitVec 3) (a : BitVec 1) (i : DataIndex) :
    (pageByte s n a i).toNat = s.toNat * 128 + n.toNat * 16 + a.toNat * 8 + i.toNat := by
  rw [pageByte, toNat_append_add, toNat_append_add, toNat_append_add]
  omega

@[simp] theorem pageSpare_pageByte (s : BitVec 1) (n : BitVec 3) (a : BitVec 1) (i : DataIndex) :
    pageSpare (pageByte s n a i) = s := by
  apply BitVec.eq_of_toNat_eq
  rw [pageSpare_toNat, pageByte_toNat]
  omega

@[simp] theorem pageMobnb_pageByte (s : BitVec 1) (n : BitVec 3) (a : BitVec 1) (i : DataIndex) :
    pageMobnb (pageByte s n a i) = n := by
  apply BitVec.eq_of_toNat_eq
  rw [pageMobnb_toNat, pageByte_toNat]
  omega

@[simp] theorem pageAinc_pageByte (s : BitVec 1) (n : BitVec 3) (a : BitVec 1) (i : DataIndex) :
    pageAinc (pageByte s n a i) = a := by
  apply BitVec.eq_of_toNat_eq
  rw [pageAinc_toNat, pageByte_toNat]
  omega

@[simp] theorem pageIndx_pageByte (s : BitVec 1) (n : BitVec 3) (a : BitVec 1) (i : DataIndex) :
    pageIndx (pageByte s n a i) = i := by
  apply BitVec.eq_of_toNat_eq
  rw [pageIndx_toNat, pageByte_toNat]
  omega

/-- A PAGE byte is the byte of its four fields. -/
theorem pageByte_fields (v : Byte) :
    pageByte (pageSpare v) (pageMobnb v) (pageAinc v) (pageIndx v) = v := by
  apply BitVec.eq_of_toNat_eq
  rw [pageByte_toNat, pageSpare_toNat, pageMobnb_toNat, pageAinc_toNat, pageIndx_toNat]
  omega

@[simp] theorem pageSpare_setIndx (v : Byte) (i : DataIndex) :
    pageSpare (setIndx v i) = pageSpare v := by simp [setIndx]

@[simp] theorem pageMobnb_setIndx (v : Byte) (i : DataIndex) :
    pageMobnb (setIndx v i) = pageMobnb v := by simp [setIndx]

@[simp] theorem pageAinc_setIndx (v : Byte) (i : DataIndex) :
    pageAinc (setIndx v i) = pageAinc v := by simp [setIndx]

@[simp] theorem pageIndx_setIndx (v : Byte) (i : DataIndex) : pageIndx (setIndx v i) = i := by
  simp [setIndx]

@[simp] theorem pageSpare_setAinc (v : Byte) (a : BitVec 1) :
    pageSpare (setAinc v a) = pageSpare v := by simp [setAinc]

@[simp] theorem pageMobnb_setAinc (v : Byte) (a : BitVec 1) :
    pageMobnb (setAinc v a) = pageMobnb v := by simp [setAinc]

@[simp] theorem pageAinc_setAinc (v : Byte) (a : BitVec 1) : pageAinc (setAinc v a) = a := by
  simp [setAinc]

@[simp] theorem pageIndx_setAinc (v : Byte) (a : BitVec 1) :
    pageIndx (setAinc v a) = pageIndx v := by simp [setAinc]

/-! ### CDMOB (10 R30) -/

theorem cdmobMode_toNat (v : Byte) : (cdmobMode v).toNat = v.toNat / 64 := by
  rw [cdmobMode, toNat_extract]
  have := v.isLt
  omega

theorem cdmobSpare_toNat (v : Byte) : (cdmobSpare v).toNat = v.toNat / 16 % 4 := by
  rw [cdmobSpare, toNat_extract]
  norm_num

theorem cdmobDlc_toNat (v : Byte) : (cdmobDlc v).toNat = v.toNat % 16 := by
  rw [cdmobDlc, toNat_extract]
  simp

theorem cdmobByte_toNat (c : BitVec 2) (x : BitVec 2) (l : DataLength) :
    (cdmobByte c x l).toNat = c.toNat * 64 + x.toNat * 16 + l.toNat := by
  rw [cdmobByte, toNat_append_add, toNat_append_add]
  omega

@[simp] theorem cdmobMode_cdmobByte (c : BitVec 2) (x : BitVec 2) (l : DataLength) :
    cdmobMode (cdmobByte c x l) = c := by
  apply BitVec.eq_of_toNat_eq
  rw [cdmobMode_toNat, cdmobByte_toNat]
  omega

@[simp] theorem cdmobSpare_cdmobByte (c : BitVec 2) (x : BitVec 2) (l : DataLength) :
    cdmobSpare (cdmobByte c x l) = x := by
  apply BitVec.eq_of_toNat_eq
  rw [cdmobSpare_toNat, cdmobByte_toNat]
  omega

@[simp] theorem cdmobDlc_cdmobByte (c : BitVec 2) (x : BitVec 2) (l : DataLength) :
    cdmobDlc (cdmobByte c x l) = l := by
  apply BitVec.eq_of_toNat_eq
  rw [cdmobDlc_toNat, cdmobByte_toNat]
  omega

/-! ### Mailbox numbers and matches -/

theorem mobOf_of_lt {n : Nat} (h : n < 6) : mobOf n = some ⟨n, h⟩ := by simp [mobOf, h]

theorem mobOf_eq_some {n : Nat} {m : MobId} : mobOf n = some m ↔ n = m.val := by
  unfold mobOf
  split
  · rename_i h
    exact ⟨fun e => by cases e; rfl, fun e => by subst e; rfl⟩
  · rename_i h
    exact ⟨nofun, fun e => absurd (e ▸ m.isLt) h⟩

theorem mobOf_eq_none {n : Nat} : mobOf n = none ↔ 6 ≤ n := by
  unfold mobOf
  split <;> simp <;> omega

@[simp] theorem mem_allMobs (m : MobId) : m ∈ allMobs := by
  revert m; decide

/-- What `takeOldest` takes: the first entry of the mailbox, the rest kept in order. -/
theorem takeOldest_eq_some {m : Nat} {q : List TxEntry} {e : TxEntry} {r : List TxEntry} :
    takeOldest m q = some (e, r) ↔
      ∃ older younger, q = older ++ e :: younger ∧ r = older ++ younger ∧ e.m.val = m ∧
        ∀ x ∈ older, x.m.val ≠ m := by
  induction q generalizing r with
  | nil => simp [takeOldest]
  | cons a q ih =>
    unfold takeOldest
    split
    · rename_i ha
      constructor
      · rintro h
        cases h
        exact ⟨[], q, rfl, rfl, ha, by simp⟩
      · rintro ⟨older, younger, hq, rfl, hm, hne⟩
        cases older with
        | nil => cases hq; rfl
        | cons b older =>
          cases hq
          exact absurd ha (hne a (by simp))
    · rename_i ha
      simp only [Option.map_eq_some_iff, Prod.mk.injEq, Prod.exists]
      constructor
      · rintro ⟨e', r', h, rfl, rfl⟩
        obtain ⟨older, younger, rfl, rfl, hm, hne⟩ := ih.mp h
        exact ⟨a :: older, younger, rfl, rfl, hm, by simpa using ⟨ha, hne⟩⟩
      · rintro ⟨older, younger, hq, rfl, hm, hne⟩
        cases older with
        | nil => cases hq; exact absurd hm ha
        | cons b older =>
          cases hq
          exact ⟨e, older ++ younger,
            ih.mpr ⟨older, younger, rfl, rfl, hm, fun x hx => hne x (by simp [hx])⟩, rfl, rfl⟩

/-- `takeOldest` takes nothing exactly when the queue has no entry of the mailbox. -/
theorem takeOldest_eq_none {m : Nat} {q : List TxEntry} :
    takeOldest m q = none ↔ ∀ e ∈ q, e.m.val ≠ m := by
  induction q with
  | nil => simp [takeOldest]
  | cons a q ih =>
    unfold takeOldest
    split
    · rename_i ha; simp [ha]
    · rename_i ha; simp [ha, ih]

end Sys2Proof.Machine
end

