-- ==== Sys2Proof/Laws/Decode.lean ====
section
/-! SUPPORT. The transaction word as a number: its fields, the words the encoder writes, and what the
decoder does with a program write or read word. -/

namespace Sys2Proof

open Machine (toNat_append_add toNat_extract)

theorem wordKind_toNat (t : Word) : (wordKind t).toNat = t.toNat / 2 ^ 28 := by
  rw [wordKind, toNat_extract]
  have := t.isLt
  omega

theorem wordSel_toNat (t : Word) : (wordSel t).toNat = t.toNat / 2 ^ 24 % 16 := by
  rw [wordSel, toNat_extract]
  norm_num

theorem wordHigh_toNat (t : Word) : (wordHigh t).toNat = t.toNat / 2 ^ 8 % 2 ^ 16 := by
  rw [wordHigh, toNat_extract]

theorem wordByte_toNat (t : Word) : (wordByte t).toNat = t.toNat % 2 ^ 8 := by
  rw [wordByte, toNat_extract]
  simp

theorem wordLength_toNat (t : Word) : (wordLength t).toNat = t.toNat / 2 ^ 11 % 16 := by
  rw [wordLength, toNat_extract]
  norm_num

theorem wordIdent_toNat (t : Word) : (wordIdent t).toNat = t.toNat % 2 ^ 11 := by
  rw [wordIdent, toNat_extract]
  simp

theorem wordRes_toNat (t : Word) : (wordRes t).toNat = t.toNat / 2 ^ 8 % 4 := by
  rw [wordRes, toNat_extract]
  norm_num

theorem writeWord_toNat (sel : BitVec 4) (v : Byte) :
    (writeWord sel v).toNat = sel.toNat * 2 ^ 24 + v.toNat := by
  rw [writeWord, toNat_append_add, toNat_append_add, toNat_append_add]
  simp
  omega

theorem readWord_toNat (sel : BitVec 4) :
    (readWord sel).toNat = 2 ^ 28 + sel.toNat * 2 ^ 24 := by
  rw [readWord, toNat_append_add, toNat_append_add]
  simp
  omega

theorem configWord_toNat (c x : BitVec 2) (l : DataLength) :
    (configWord c x l).toNat = 2 ^ 24 + c.toNat * 64 + x.toNat * 16 + l.toNat := by
  rw [configWord, writeWord_toNat, toNat_append_add, toNat_append_add]
  simp
  omega

theorem sendWord_toNat (m : Byte) : (encodeWord (.hostSend m)).toNat = 2 * 2 ^ 28 + m.toNat := by
  rw [encodeWord, toNat_append_add, toNat_append_add, toNat_append_add]
  simp

theorem receiveWord_toNat (id : Ident) (l : DataLength) (d : Payload) :
    (encodeWord (.hostReceive id l d)).toNat =
      2 * 2 ^ 28 + 2 ^ 24 + l.toNat * 2 ^ 11 + id.toNat := by
  rw [encodeWord, toNat_append_add, toNat_append_add, toNat_append_add, toNat_append_add]
  simp
  omega

theorem popWord_toNat (res : WriteResult) (m : Byte) :
    (encodeWord (.hostTxpop res m)).toNat =
      2 * 2 ^ 28 + 2 * 2 ^ 24 + (encodeResult res).toNat * 2 ^ 8 + m.toNat := by
  rw [encodeWord, toNat_append_add, toNat_append_add, toNat_append_add, toNat_append_add]
  simp
  omega

/-- Two words with the same number are the same word. -/
theorem word_ext {t u : Word} (h : t.toNat = u.toNat) : t = u := BitVec.eq_of_toNat_eq h

/-- A field of a word is zero exactly when its number is. -/
theorem extract_eq_zero {t : Word} (s n : Nat) :
    t.extractLsb' s n = 0 ↔ t.toNat / 2 ^ s % 2 ^ n = 0 := by
  rw [← toNat_extract]
  constructor
  · intro h; rw [h]; simp
  · intro h; apply BitVec.eq_of_toNat_eq; simpa using h

theorem wordHigh_eq_zero {t : Word} : wordHigh t = 0 ↔ t.toNat / 2 ^ 8 % 2 ^ 16 = 0 :=
  extract_eq_zero 8 16

/-- A program write word decodes to the write its SEL names (30 R81). -/
theorem decode_writeWord (r : Bool) (sel : BitVec 4) (v : Byte) (d : Payload) :
    decode r (writeWord sel v) d = decodeWrite r sel.toNat v := by
  have hs := sel.isLt
  have hv := v.isLt
  have hw := writeWord_toNat sel v
  have hk : (wordKind (writeWord sel v)).toNat = 0 := by rw [wordKind_toNat, hw]; omega
  have hh : wordHigh (writeWord sel v) = 0 := by rw [wordHigh_eq_zero, hw]; omega
  have hb : wordByte (writeWord sel v) = v := by
    apply BitVec.eq_of_toNat_eq; rw [wordByte_toNat, hw]; omega
  have hl : (wordSel (writeWord sel v)).toNat = sel.toNat := by rw [wordSel_toNat, hw]; omega
  simp [decode, hk, hh, hb, hl]

/-- A program read word decodes to the read its SEL names (30 R81). -/
theorem decode_readWord (r : Bool) (sel : BitVec 4) (d : Payload) :
    decode r (readWord sel) d = decodeRead sel.toNat := by
  have hs := sel.isLt
  have hw := readWord_toNat sel
  have hk : (wordKind (readWord sel)).toNat = 1 := by rw [wordKind_toNat, hw]; omega
  have hh : (readWord sel).extractLsb' 0 24 = 0 := by rw [extract_eq_zero, hw]; omega
  have hl : (wordSel (readWord sel)).toNat = sel.toNat := by rw [wordSel_toNat, hw]; omega
  simp [decode, hk, hh, hl]

/-- The configuration operation of a written byte, by its three fields (30 R71, R75). -/
theorem decodeConfig_append (c x : BitVec 2) (l : DataLength) :
    decodeConfig (c ++ x ++ l) =
      match c.toNat with
      | 0 => .wrCdmobDis x l
      | 1 => .wrCdmobTx x l
      | 2 => .wrCdmobRx x l
      | _ => .wrCdmobRxb x l := by
  have hc : (c ++ x ++ l).extractLsb' 6 2 = c := Machine.cdmobMode_cdmobByte c x l
  have hx : (c ++ x ++ l).extractLsb' 4 2 = x := Machine.cdmobSpare_cdmobByte c x l
  have hl : (c ++ x ++ l).extractLsb' 0 4 = l := Machine.cdmobDlc_cdmobByte c x l
  simp only [decodeConfig, hc, hx, hl] <;> rfl

end Sys2Proof
end

