-- ==== Sys2Proof/Laws/Ops.lean ====
section
/-! SUPPORT. For each shared operation, once, what it can do: the checks by the outcome they allow,
the composite effects by the fields they write. -/

namespace Sys2Proof.Machine

/-! ### The checks -/

theorem whenLive_next {s t : State} {k : Result} :
    s.whenLive k = .next t ↔ s.fault = none ∧ k = .next t := by
  unfold State.whenLive
  split <;> simp_all

@[simp] theorem whenLive_of_none {s : State} (h : s.fault = none) (k : Result) :
    s.whenLive k = k := by
  simp [State.whenLive, h]

@[simp] theorem whenLive_of_some {s : State} {r : FaultReason} (h : s.fault = some r) (k : Result) :
    s.whenLive k = .fault (.halted r) := by
  simp [State.whenLive, h]

theorem hostRequest_next {s t : State} {k : Result} :
    s.hostRequest k = .next t ↔ s.fault = none ∧ s.cfg.bridgePresent = true ∧ k = .next t := by
  unfold State.hostRequest
  rw [whenLive_next]
  split <;> simp_all

@[simp] theorem hostRequest_of_ready {s : State} (h : s.fault = none)
    (hb : s.cfg.bridgePresent = true) (k : Result) : s.hostRequest k = k := by
  simp [State.hostRequest, h, hb]

@[simp] theorem hostRequest_of_some {s : State} {r : FaultReason} (h : s.fault = some r)
    (k : Result) : s.hostRequest k = .fault (.halted r) := by
  simp [State.hostRequest, h]

theorem hostRequest_of_noBridge {s : State} (h : s.fault = none)
    (hb : s.cfg.bridgePresent = false) (k : Result) : s.hostRequest k = .refused .noBridge := by
  simp [State.hostRequest, h, hb]

theorem raise_next {s t : State} {r : FaultReason} : s.raise r = .next t ↔ t = s.faulted r := by
  simp [State.raise, eq_comm]

theorem checkLength_next {s t : State} {v : Byte} {k : Result} :
    s.checkLength v k = .next t ↔
      (8 < (cdmobDlc v).toNat ∧ t = s.faulted (.dlc v)) ∨
        ((cdmobDlc v).toNat ≤ 8 ∧ k = .next t) := by
  unfold State.checkLength
  split
  · rename_i h
    simp [raise_next, h, Nat.not_le.mpr h]
  · rename_i h
    simp [h, Nat.le_of_not_lt h]

@[simp] theorem checkLength_of_le {s : State} {v : Byte} (h : (cdmobDlc v).toNat ≤ 8) (k : Result) :
    s.checkLength v k = k := by
  simp [State.checkLength, Nat.not_lt.mpr h]

@[simp] theorem checkLength_of_gt {s : State} {v : Byte} (h : 8 < (cdmobDlc v).toNat)
    (k : Result) : s.checkLength v k = .next (s.faulted (.dlc v)) := by
  simp [State.checkLength, h, State.raise]

/-! ### Mode codes -/

@[simp] theorem Mode.ofCode_code (m : Mode) : Mode.ofCode m.code = m := by cases m <;> rfl

@[simp] theorem Mode.code_ofCode (c : BitVec 2) : (Mode.ofCode c).code = c := by
  revert c; decide

/-! ### The composite effects, each as the fields it writes -/

theorem snapshot_eq (s : State) (c : MobId) :
    s.snapshot c = { s with mob := (s.snapshot c).mob } := rfl

theorem snapshot_mailbox (s : State) (c k : MobId) :
    (s.snapshot c).mailbox k =
      if k = c then
        { s.mailbox c with
          dlc := cdmobDlc s.cdmob
          mode := Mode.ofCode (cdmobMode s.cdmob)
          idx := pageIndx s.page
          id := s.shadowId
          mask := s.shadowMask }
      else s.mailbox k := by
  simp [State.snapshot, State.mailbox_setMailbox]

theorem select_eq (s : State) (v : Byte) (n : MobId) :
    s.select v n =
      { s with
        mob := (s.snapshot s.cur).mob
        cur := n
        page := pageByte (pageSpare v) (BitVec.ofNat 3 n.val) (pageAinc v)
          ((s.snapshot s.cur).mailbox n).idx
        cdmob := cdmobByte ((s.snapshot s.cur).mailbox n).mode.code 0
          ((s.snapshot s.cur).mailbox n).dlc
        idt1 := splitHi ((s.snapshot s.cur).mailbox n).id
        idt2 := splitLo ((s.snapshot s.cur).mailbox n).id
        idm1 := splitHi ((s.snapshot s.cur).mailbox n).mask
        idm2 := splitLo ((s.snapshot s.cur).mailbox n).mask
        hist := s.hist ++ [.mailboxSwitch n] } := rfl

@[simp] theorem select_mailbox (s : State) (v : Byte) (n k : MobId) :
    (s.select v n).mailbox k = (s.snapshot s.cur).mailbox k := rfl

theorem commit_eq (s : State) (v : Byte) :
    s.commit v = { s with cdmob := v, mob := (s.commit v).mob } := rfl

theorem commit_mailbox (s : State) (v : Byte) (k : MobId) :
    (s.commit v).mailbox k =
      if k = s.cur then
        { s.mailbox s.cur with
          dlc := cdmobDlc v
          mode := Mode.ofCode (cdmobMode v)
          idx := pageIndx s.page
          id := s.shadowId
          mask := s.shadowMask }
      else s.mailbox k := by
  unfold State.commit
  rw [State.mailbox_setMailbox]
  rfl

/-- The frame a transmit write of v sends (40 R106, 41 R147): the values just committed. -/
def sentFrame (s : State) (v : Byte) : WireFrame :=
  { id := s.shadowId, dlc := cdmobDlc v, data := (s.mailbox s.cur).data }

theorem capture_commit (s : State) (v : Byte) : (s.commit v).capture s.cur = sentFrame s v := by
  simp [State.capture, commit_mailbox, sentFrame]

theorem transmit_eq (s : State) (v : Byte) :
    s.transmit v =
      { s with
        cdmob := v
        mob := (s.commit v).mob
        txbsy := true
        txq := if s.cfg.bridgePresent then s.txq ++ [⟨s.cur, sentFrame s v⟩] else s.txq
        hist := s.hist ++ [.transmit s.cur] ++
          [if s.cfg.bridgePresent then .txQueued s.cur (sentFrame s v)
            else .txDropped s.cur (sentFrame s v)] } := by
  have hc := capture_commit s v
  unfold State.transmit
  cases hb : s.cfg.bridgePresent
  · simp only [Bool.false_eq_true, if_false]
    rw [← hc]
    rfl
  · simp only [if_true]
    rw [← hc]
    rfl

@[simp] theorem transmit_mailbox (s : State) (v : Byte) (k : MobId) :
    (s.transmit v).mailbox k = (s.commit v).mailbox k := by
  rw [transmit_eq]
  rfl

theorem storeData_eq (s : State) (v : Byte) :
    s.storeData v =
      { s with
        page := if s.aincEn then setIndx s.page (pageIndx s.page + 1) else s.page
        mob := (s.storeData v).mob } := rfl

theorem storeData_mailbox (s : State) (v : Byte) (k : MobId) :
    (s.storeData v).mailbox k =
      if k = s.cur then
        { s.mailbox s.cur with
          data := (s.mailbox s.cur).data.set (pageIndx s.page).toNat v (pageIndx s.page).isLt }
      else s.mailbox k := by
  unfold State.storeData
  rw [State.mailbox_setMailbox]
  rfl

theorem deliver_eq (s : State) (m : MobId) (id : Ident) (l : DataLength) (d : Payload) :
    s.deliver m id l d =
      { s with
        idt1 := splitHi id
        idt2 := splitLo id
        draws := s.draws + 8
        mob := (s.deliver m id l d).mob } := rfl

theorem deliver_mailbox (s : State) (m : MobId) (id : Ident) (l : DataLength) (d : Payload)
    (k : MobId) :
    (s.deliver m id l d).mailbox k =
      if k = m then { s.mailbox m with dlc := l, data := deliveredData s.draws l d }
      else s.mailbox k := by
  unfold State.deliver
  rw [State.mailbox_setMailbox]
  rfl

/-- The received bytes reach the mailbox unchanged (41 R144). -/
theorem deliveredData_getElem (n : Nat) (l : DataLength) (d : Payload) (i : Fin 8)
    (h : i.val < l.toNat) : (deliveredData n l d)[i] = d[i] := by
  simp [deliveredData, h]

theorem receive_of_match {s : State} {id : Ident} {m : MobId} (h : s.findMatch id = some m)
    (l : DataLength) (d : Payload) :
    s.receive id l d =
      { s with
        idt1 := splitHi id
        idt2 := splitLo id
        draws := s.draws + 8
        mob := (s.deliver m id l d).mob
        hrxResult := some (.matched m)
        hist := s.hist ++ [.rxMatched m ⟨id, l, d⟩] } := by
  simp only [State.receive, h]
  rfl

theorem receive_of_noMatch {s : State} {id : Ident} (h : s.findMatch id = none)
    (l : DataLength) (d : Payload) :
    s.receive id l d =
      { s with hrxResult := some .noMatch, hist := s.hist ++ [.rxNoMatch ⟨id, l, d⟩] } := by
  simp only [State.receive, h]
  rfl

theorem accepts_iff (o : Mailbox) (id : Ident) :
    o.accepts id = true ↔ o.mode = .rx ∧ id &&& o.mask = o.id &&& o.mask := by
  simp [Mailbox.accepts]

/-- The scan finds nothing exactly when no mailbox accepts (41 R142). -/
theorem findMatch_eq_none {s : State} {id : Ident} :
    s.findMatch id = none ↔ ∀ m, (s.mailbox m).accepts id = false := by
  simp [State.findMatch]

/-- The scan finds the lowest mailbox that accepts (41 R142). -/
theorem findMatch_eq_some {s : State} {id : Ident} {m : MobId} :
    s.findMatch id = some m ↔
      (s.mailbox m).accepts id = true ∧ ∀ k, k < m → (s.mailbox k).accepts id = false := by
  have key : ∀ p : MobId → Bool, ∀ m : MobId,
      allMobs.find? p = some m ↔ p m = true ∧ ∀ k, k < m → p k = false := by
    intro p m
    have hall : ∀ f : MobId → Prop, (∀ k, f k) ↔ f 0 ∧ f 1 ∧ f 2 ∧ f 3 ∧ f 4 ∧ f 5 := by
      intro f
      constructor
      · intro h; exact ⟨h 0, h 1, h 2, h 3, h 4, h 5⟩
      · rintro ⟨h0, h1, h2, h3, h4, h5⟩ k
        match k with
        | 0 => exact h0
        | 1 => exact h1
        | 2 => exact h2
        | 3 => exact h3
        | 4 => exact h4
        | 5 => exact h5
    rw [hall fun k => k < m → p k = false]
    simp only [allMobs, List.find?]
    cases h0 : p 0 <;> cases h1 : p 1 <;> cases h2 : p 2 <;> cases h3 : p 3 <;> cases h4 : p 4 <;>
      cases h5 : p 5 <;> revert m <;> simp only [hall] <;> simp [h0, h1, h2, h3, h4, h5]
  exact key _ m

theorem popFrame_eq (s : State) (ev : Event) (e : TxEntry) (q : List TxEntry) :
    s.popFrame ev e q =
      { s with
        txq := q
        txbsy := txbsyAfterPop s.cfg.txbsyClear q s.txbsy
        hist := s.hist ++ [ev]
        takenFrame := some e.frame } := rfl

@[simp] theorem popFrame_mailbox (s : State) (ev : Event) (e : TxEntry) (q : List TxEntry)
    (k : MobId) : (s.popFrame ev e q).mailbox k = s.mailbox k := rfl

/-- The host writes the frame a TXPOP took (41 R150). -/
@[simp] theorem popFrame_endpointBytes (s : State) (ev : Event) (e : TxEntry) (q : List TxEntry) :
    (s.popFrame ev e q).endpointBytes = some (serialize s.cfg.hostByteOrder e.frame) := rfl

/-- A frame looked up by a SEND is not written (41 R141, R150). -/
@[simp] theorem returnLookup_endpointBytes (s : State) (f : WireFrame) :
    (s.returnLookup f).endpointBytes = s.endpointBytes := rfl

theorem deviceReset_eq (s : State) :
    s.deviceReset =
      { s with page := setAinc s.page (aincOn s.cfg), hist := s.hist ++ [.deviceReset] } := rfl

@[simp] theorem deviceReset_mailbox (s : State) (k : MobId) :
    s.deviceReset.mailbox k = s.mailbox k := rfl

end Sys2Proof.Machine
end

