-- ==== Sys2Proof/Laws/Exec.lean ====
section
/-! SUPPORT. Said once: everything a transaction that answers a next state can have done, and
everything a step that answers one can have done. -/

namespace Sys2Proof.Machine

/-- `Taken i s t`: the transaction i, presented in s, may leave t. One constructor per effect. -/
inductive Taken : Instr → State → State → Prop where
  | selectFault (s : State) (v : Byte) (h : 6 ≤ (pageMobnb v).toNat) :
      Taken (.wrPage v) s (s.faulted (.mobIndex ((pageMobnb v).setWidth 8)))
  | select (s : State) (v : Byte) (n : MobId) (h : (pageMobnb v).toNat = n.val) :
      Taken (.wrPage v) s (s.select v n)
  | disFault (s : State) (x : BitVec 2) (l : DataLength) (h : 8 < l.toNat) :
      Taken (.wrCdmobDis x l) s (s.faulted (.dlc (cdmobByte Mode.dis.code x l)))
  | dis (s : State) (x : BitVec 2) (l : DataLength) (h : l.toNat ≤ 8) :
      Taken (.wrCdmobDis x l) s (s.commit (cdmobByte Mode.dis.code x l))
  | txFault (s : State) (x : BitVec 2) (l : DataLength) (h : 8 < l.toNat) :
      Taken (.wrCdmobTx x l) s (s.faulted (.dlc (cdmobByte Mode.tx.code x l)))
  | txWaits (s : State) (x : BitVec 2) (l : DataLength) (h : l.toNat ≤ 8)
      (hh : s.txHolds = true) : Taken (.wrCdmobTx x l) s s
  | tx (s : State) (x : BitVec 2) (l : DataLength) (h : l.toNat ≤ 8) (hh : s.txHolds = false) :
      Taken (.wrCdmobTx x l) s (s.transmit (cdmobByte Mode.tx.code x l))
  | rxFault (s : State) (x : BitVec 2) (l : DataLength) (h : 8 < l.toNat) :
      Taken (.wrCdmobRx x l) s (s.faulted (.dlc (cdmobByte Mode.rx.code x l)))
  | rx (s : State) (x : BitVec 2) (l : DataLength) (h : l.toNat ≤ 8) :
      Taken (.wrCdmobRx x l) s (s.commit (cdmobByte Mode.rx.code x l))
  | rxbFault (s : State) (x : BitVec 2) (l : DataLength) (h : 8 < l.toNat) :
      Taken (.wrCdmobRxb x l) s (s.faulted (.dlc (cdmobByte Mode.rxb.code x l)))
  | rxb (s : State) (x : BitVec 2) (l : DataLength) (h : l.toNat ≤ 8) :
      Taken (.wrCdmobRxb x l) s (s.commit (cdmobByte Mode.rxb.code x l))
  | msg (s : State) (v : Byte) : Taken (.wrMsg v) s (s.storeData v)
  | idt1 (s : State) (v : Byte) : Taken (.wrIdt1 v) s { s with idt1 := v }
  | idt2 (s : State) (v : Byte) : Taken (.wrIdt2 v) s { s with idt2 := v }
  | idm1 (s : State) (v : Byte) : Taken (.wrIdm1 v) s { s with idm1 := v }
  | idm2 (s : State) (v : Byte) : Taken (.wrIdm2 v) s { s with idm2 := v }
  | resetReg (s : State) (v : Byte) (h : s.cfg.resetTrigger.isSome = true) :
      Taken (.wrResetReg v) s s.deviceReset
  | rdPage (s : State) : Taken .rdPage s (s.returnByte s.page)
  | rdCdmob (s : State) : Taken .rdCdmob s (s.returnByte s.cdmob)
  | rdMsg (s : State) : Taken .rdMsg s s.returnDraw
  | rdIdt1 (s : State) : Taken .rdIdt1 s (s.returnByte s.idt1)
  | rdIdt2 (s : State) : Taken .rdIdt2 s (s.returnByte s.idt2)
  | rdIdm1 (s : State) : Taken .rdIdm1 s (s.returnByte s.idm1)
  | rdIdm2 (s : State) : Taken .rdIdm2 s (s.returnByte s.idm2)
  | sendFault (s : State) (m : Byte) (hb : s.cfg.bridgePresent = true) (h : 6 ≤ m.toNat) :
      Taken (.hostSend m) s (s.faulted (.mobIndex m))
  | send (s : State) (m : Byte) (n : MobId) (hb : s.cfg.bridgePresent = true)
      (h : m.toNat = n.val) : Taken (.hostSend m) s (s.returnLookup (s.capture n))
  | receive (s : State) (id : Ident) (l : DataLength) (d : Payload)
      (hb : s.cfg.bridgePresent = true) (h : l.toNat ≤ 8) :
      Taken (.hostReceive id l d) s (s.receive id l d)
  | popWaits (s : State) (res : WriteResult) (m : Byte) (hb : s.cfg.bridgePresent = true)
      (h : takeOldest m.toNat s.txq = none) : Taken (.hostTxpop res m) s s
  | popFault (s : State) (m : Byte) (e : TxEntry) (q : List TxEntry)
      (hb : s.cfg.bridgePresent = true) (h : takeOldest m.toNat s.txq = some (e, q)) :
      Taken (.hostTxpop .error m) s (s.faulted (.hostWrite m))
  | popOk (s : State) (m : Byte) (e : TxEntry) (q : List TxEntry)
      (hb : s.cfg.bridgePresent = true) (h : takeOldest m.toNat s.txq = some (e, q)) :
      Taken (.hostTxpop .ok m) s (s.popFrame (.txWritten e.m e.frame) e q)
  | popShort (s : State) (m : Byte) (e : TxEntry) (q : List TxEntry)
      (hb : s.cfg.bridgePresent = true) (h : takeOldest m.toNat s.txq = some (e, q)) :
      Taken (.hostTxpop .short m) s (s.popFrame (.txShortWrite e.m e.frame) e q)
  | reset (s : State) : Taken .reset s s.deviceReset

theorem execWrPage_taken {v : Byte} {s t : State} (h : execWrPage v s = .next t) :
    s.fault = none ∧ Taken (.wrPage v) s t := by
  obtain ⟨hf, h⟩ := whenLive_next.mp h
  refine ⟨hf, ?_⟩
  split at h
  · rename_i n hn
    cases h
    exact .select s v n (mobOf_eq_some.mp hn)
  · rename_i hn
    cases raise_next.mp h
    exact .selectFault s v (mobOf_eq_none.mp hn)

theorem execWrCdmobDis_taken {x : BitVec 2} {l : DataLength} {s t : State}
    (h : execWrCdmobDis x l s = .next t) : s.fault = none ∧ Taken (.wrCdmobDis x l) s t := by
  obtain ⟨hf, h⟩ := whenLive_next.mp h
  simp only [checkLength_next, cdmobDlc_cdmobByte] at h
  obtain ⟨hl, rfl⟩ | ⟨hl, h⟩ := h
  · exact ⟨hf, .disFault s x l hl⟩
  · cases h; exact ⟨hf, .dis s x l hl⟩

theorem execWrCdmobRx_taken {x : BitVec 2} {l : DataLength} {s t : State}
    (h : execWrCdmobRx x l s = .next t) : s.fault = none ∧ Taken (.wrCdmobRx x l) s t := by
  obtain ⟨hf, h⟩ := whenLive_next.mp h
  simp only [checkLength_next, cdmobDlc_cdmobByte] at h
  obtain ⟨hl, rfl⟩ | ⟨hl, h⟩ := h
  · exact ⟨hf, .rxFault s x l hl⟩
  · cases h; exact ⟨hf, .rx s x l hl⟩

theorem execWrCdmobRxb_taken {x : BitVec 2} {l : DataLength} {s t : State}
    (h : execWrCdmobRxb x l s = .next t) : s.fault = none ∧ Taken (.wrCdmobRxb x l) s t := by
  obtain ⟨hf, h⟩ := whenLive_next.mp h
  simp only [checkLength_next, cdmobDlc_cdmobByte] at h
  obtain ⟨hl, rfl⟩ | ⟨hl, h⟩ := h
  · exact ⟨hf, .rxbFault s x l hl⟩
  · cases h; exact ⟨hf, .rxb s x l hl⟩

theorem execWrCdmobTx_taken {x : BitVec 2} {l : DataLength} {s t : State}
    (h : execWrCdmobTx x l s = .next t) : s.fault = none ∧ Taken (.wrCdmobTx x l) s t := by
  obtain ⟨hf, h⟩ := whenLive_next.mp h
  simp only [checkLength_next, cdmobDlc_cdmobByte] at h
  obtain ⟨hl, rfl⟩ | ⟨hl, h⟩ := h
  · exact ⟨hf, .txFault s x l hl⟩
  · split at h
    · rename_i hh
      cases h; exact ⟨hf, .txWaits _ x l hl hh⟩
    · rename_i hh
      cases h; exact ⟨hf, .tx s x l hl (by simpa using hh)⟩

theorem execWrResetReg_taken {v : Byte} {s t : State} (h : execWrResetReg v s = .next t) :
    s.fault = none ∧ Taken (.wrResetReg v) s t := by
  obtain ⟨hf, h⟩ := whenLive_next.mp h
  split at h
  · rename_i hr
    cases h; exact ⟨hf, .resetReg s v hr⟩
  · cases h

theorem execHostSend_taken {m : Byte} {s t : State} (h : execHostSend m s = .next t) :
    s.fault = none ∧ Taken (.hostSend m) s t := by
  obtain ⟨hf, hb, h⟩ := hostRequest_next.mp h
  split at h
  · rename_i n hn
    cases h; exact ⟨hf, .send s m n hb (mobOf_eq_some.mp hn)⟩
  · rename_i hn
    cases raise_next.mp h; exact ⟨hf, .sendFault s m hb (mobOf_eq_none.mp hn)⟩

theorem execHostReceive_taken {id : Ident} {l : DataLength} {d : Payload} {s t : State}
    (h : execHostReceive id l d s = .next t) :
    s.fault = none ∧ Taken (.hostReceive id l d) s t := by
  obtain ⟨hf, hb, h⟩ := hostRequest_next.mp h
  split at h
  · rename_i hl
    cases h; exact ⟨hf, .receive s id l d hb hl⟩
  · cases h

theorem execHostTxpop_taken {res : WriteResult} {m : Byte} {s t : State}
    (h : execHostTxpop res m s = .next t) : s.fault = none ∧ Taken (.hostTxpop res m) s t := by
  obtain ⟨hf, hb, h⟩ := hostRequest_next.mp h
  split at h
  · rename_i hn
    cases h; exact ⟨hf, .popWaits _ res m hb hn⟩
  · rename_i e q he
    split at h
    · cases raise_next.mp h; exact ⟨hf, .popFault s m e q hb he⟩
    · cases h; exact ⟨hf, .popOk s m e q hb he⟩
    · cases h; exact ⟨hf, .popShort s m e q hb he⟩

/-- Everything a transaction that answers a next state can have done. -/
theorem exec_taken {i : Instr} {s t : State} (h : exec i s = .next t) :
    s.fault = none ∧ Taken i s t := by
  cases i with
  | wrPage v => exact execWrPage_taken h
  | wrCdmobDis x l => exact execWrCdmobDis_taken h
  | wrCdmobTx x l => exact execWrCdmobTx_taken h
  | wrCdmobRx x l => exact execWrCdmobRx_taken h
  | wrCdmobRxb x l => exact execWrCdmobRxb_taken h
  | wrMsg v => obtain ⟨hf, h⟩ := whenLive_next.mp h; cases h; exact ⟨hf, .msg s v⟩
  | wrIdt1 v => obtain ⟨hf, h⟩ := whenLive_next.mp h; cases h; exact ⟨hf, .idt1 s v⟩
  | wrIdt2 v => obtain ⟨hf, h⟩ := whenLive_next.mp h; cases h; exact ⟨hf, .idt2 s v⟩
  | wrIdm1 v => obtain ⟨hf, h⟩ := whenLive_next.mp h; cases h; exact ⟨hf, .idm1 s v⟩
  | wrIdm2 v => obtain ⟨hf, h⟩ := whenLive_next.mp h; cases h; exact ⟨hf, .idm2 s v⟩
  | wrResetReg v => exact execWrResetReg_taken h
  | rdPage => obtain ⟨hf, h⟩ := whenLive_next.mp h; cases h; exact ⟨hf, .rdPage s⟩
  | rdCdmob => obtain ⟨hf, h⟩ := whenLive_next.mp h; cases h; exact ⟨hf, .rdCdmob s⟩
  | rdMsg => obtain ⟨hf, h⟩ := whenLive_next.mp h; cases h; exact ⟨hf, .rdMsg s⟩
  | rdIdt1 => obtain ⟨hf, h⟩ := whenLive_next.mp h; cases h; exact ⟨hf, .rdIdt1 s⟩
  | rdIdt2 => obtain ⟨hf, h⟩ := whenLive_next.mp h; cases h; exact ⟨hf, .rdIdt2 s⟩
  | rdIdm1 => obtain ⟨hf, h⟩ := whenLive_next.mp h; cases h; exact ⟨hf, .rdIdm1 s⟩
  | rdIdm2 => obtain ⟨hf, h⟩ := whenLive_next.mp h; cases h; exact ⟨hf, .rdIdm2 s⟩
  | hostSend m => exact execHostSend_taken h
  | hostReceive id l d => exact execHostReceive_taken h
  | hostTxpop res m => exact execHostTxpop_taken h
  | reset => obtain ⟨hf, h⟩ := whenLive_next.mp h; cases h; exact ⟨hf, .reset s⟩

/-- `Stepped s t`: a step from s may leave t. -/
inductive Stepped : State → State → Prop where
  | idle (s : State) : Stepped s s
  | pass (s : State) : Stepped s s.passTurn
  | unseen (s : State) (a : Agent) : Stepped s (s.takeRequest a)
  | dropped (s : State) (b : List Byte) :
      Stepped s ((s.takeRequest .hrx).emit (.rxDropped b))
  | taken (s t : State) (a : Agent) (i : Instr) (h : Taken i (s.takeRequest a) t) : Stepped s t

theorem present_dropped {p : Params} {a : Agent} {q : Request} {b : List Byte}
    (h : q.present p = .dropped b) (hm : mayPresent p a q = true) : a = .hrx := by
  cases q with
  | word t d =>
    simp only [Request.present, presentWord] at h
    split at h <;> cases h
  | busWrite addr v =>
    simp only [Request.present, presentWrite, presentWord] at h
    split at h
    · split at h <;> cases h
    · cases h
  | busRead addr =>
    simp only [Request.present, presentRead, presentWord] at h
    split at h
    · split at h
      · cases h
      · split at h <;> cases h
    · cases h
  | hostRead bs => simpa [mayPresent] using hm

theorem serve_stepped {a : Agent} {q : Request} {s t : State} (h : serve a q s = .next t) :
    Stepped s t := by
  unfold serve at h
  split at h
  · rename_i hm
    split at h
    · rename_i i hi
      split at h
      · cases h; exact .pass s
      · exact .taken s t a i (exec_taken h).2
    · cases h; exact .unseen s a
    · rename_i b hb
      obtain rfl := present_dropped hb hm
      obtain ⟨-, -, h⟩ := hostRequest_next.mp h
      cases h; exact .dropped s b
    · cases h
  · cases h

/-- Everything a step that answers a next state can have done. -/
theorem step_stepped {s t : State} (h : step s = .next t) : s.fault = none ∧ Stepped s t := by
  obtain ⟨hf, h⟩ := whenLive_next.mp h
  refine ⟨hf, ?_⟩
  split at h
  · cases h; exact .idle _
  · split at h
    · cases h; exact .pass s
    · exact serve_stepped h

/-- A transaction that is not enabled changes nothing when it is run all the same. -/
theorem exec_of_waits {i : Instr} {s : State} (hf : s.fault = none) (h : waits i s = true) :
    exec i s = .next s := by
  cases i <;> simp only [waits, Bool.and_eq_true, decide_eq_true_eq, Option.isNone_iff_eq_none,
    Bool.false_eq_true] at h
  case wrCdmobTx x l => simp [exec, execWrCdmobTx, hf, h.1, h.2]
  case hostTxpop res m => simp [exec, execHostTxpop, hf, h.1, h.2]

end Sys2Proof.Machine
end

