-- ==== Sys2Proof/Laws/PerInstr.lean ====
section
/-! SUPPORT. Per instruction: the word an instruction encodes to matches its own row of the opcode
map under the row's mask (30 R90). -/

namespace Sys2Proof.Laws.Row

/-- The instruction's word matches the opcode-map row of its number. -/
def Statement (i : Instr) : Prop :=
  ∃ r, opcodeRows[i.rowNumber]? = some r ∧ rowMatches (encode i).1 r = true

theorem wrPage (v : Byte) : Statement (.wrPage v) := by
  refine ⟨_, rfl, ?_⟩
  revert v; decide

theorem wrCdmobDis (x : BitVec 2) (l : DataLength) : Statement (.wrCdmobDis x l) := by
  refine ⟨_, rfl, ?_⟩
  revert x l; decide

theorem wrCdmobTx (x : BitVec 2) (l : DataLength) : Statement (.wrCdmobTx x l) := by
  refine ⟨_, rfl, ?_⟩
  revert x l; decide

theorem wrCdmobRx (x : BitVec 2) (l : DataLength) : Statement (.wrCdmobRx x l) := by
  refine ⟨_, rfl, ?_⟩
  revert x l; decide

theorem wrCdmobRxb (x : BitVec 2) (l : DataLength) : Statement (.wrCdmobRxb x l) := by
  refine ⟨_, rfl, ?_⟩
  revert x l; decide

theorem wrMsg (v : Byte) : Statement (.wrMsg v) := by
  refine ⟨_, rfl, ?_⟩
  revert v; decide

theorem wrIdt1 (v : Byte) : Statement (.wrIdt1 v) := by
  refine ⟨_, rfl, ?_⟩
  revert v; decide

theorem wrIdt2 (v : Byte) : Statement (.wrIdt2 v) := by
  refine ⟨_, rfl, ?_⟩
  revert v; decide

theorem wrIdm1 (v : Byte) : Statement (.wrIdm1 v) := by
  refine ⟨_, rfl, ?_⟩
  revert v; decide

theorem wrIdm2 (v : Byte) : Statement (.wrIdm2 v) := by
  refine ⟨_, rfl, ?_⟩
  revert v; decide

theorem wrResetReg (v : Byte) : Statement (.wrResetReg v) := by
  refine ⟨_, rfl, ?_⟩
  revert v; decide

theorem rdPage : Statement .rdPage := ⟨_, rfl, by decide⟩

theorem rdCdmob : Statement .rdCdmob := ⟨_, rfl, by decide⟩

theorem rdMsg : Statement .rdMsg := ⟨_, rfl, by decide⟩

theorem rdIdt1 : Statement .rdIdt1 := ⟨_, rfl, by decide⟩

theorem rdIdt2 : Statement .rdIdt2 := ⟨_, rfl, by decide⟩

theorem rdIdm1 : Statement .rdIdm1 := ⟨_, rfl, by decide⟩

theorem rdIdm2 : Statement .rdIdm2 := ⟨_, rfl, by decide⟩

theorem reset : Statement .reset := ⟨_, rfl, by decide⟩

theorem hostSend (m : Byte) : Statement (.hostSend m) := by
  refine ⟨_, rfl, ?_⟩
  revert m; decide

/-- A RECEIVE word is its 17 fixed bits above its 15 operand bits (30 R82). -/
theorem receiveWord_eq (id : Ident) (l : DataLength) (d : Payload) :
    (encode (.hostReceive id l d)).1 = 0x4200#17 ++ (l ++ id) := by
  apply BitVec.eq_of_toNat_eq
  simp only [encode, encodeWord]
  rw [Machine.toNat_append_add, Machine.toNat_append_add, Machine.toNat_append_add,
    Machine.toNat_append_add, Machine.toNat_append_add, Machine.toNat_append_add]
  simp
  omega

theorem hostReceive (id : Ident) (l : DataLength) (d : Payload) :
    Statement (.hostReceive id l d) := by
  refine ⟨_, rfl, ?_⟩
  rw [receiveWord_eq]
  have h : (0x4200#17 ++ (l ++ id)) &&& (0x1FFFF#17 ++ 0#15) = 0x4200#17 ++ 0#15 := by
    rw [BitVec.and_append]; simp
  simpa [rowMatches] using h

theorem hostTxpop (res : WriteResult) (m : Byte) : Statement (.hostTxpop res m) := by
  refine ⟨_, rfl, ?_⟩
  cases res <;> (revert m; decide)

end Sys2Proof.Laws.Row
end

