-- ==== Sys2Proof/Machine/Pseudo.lean ====
section
/-! DEFINITION. The pseudo-instructions of 30 R89, as the transactions they stand for. One of several
transactions is not atomic: another agent's can fall between its parts (70 R229). R89 gives
no range for m and dlc: each is taken at the width of the field it fills (DESIGN CHOICE, log 24). -/

namespace Sys2Proof.Machine

/-- SELECT m: the mailbox-select write with auto-increment on. R89 gives m no range; DESIGN CHOICE
(log 24): m is the 3-bit field N, 0 to 7, and 6 and 7 expand to the write that faults (30 R86). -/
def pseudoSelect (p : Params) (m : BitVec 3) : List Instr :=
  [.wrPage (pageByte 0 m (aincOn p) 0)]

/-- SELECT.NOINC m: the mailbox-select write with auto-increment off; m as for SELECT (log 24). -/
def pseudoSelectNoinc (p : Params) (m : BitVec 3) : List Instr :=
  [.wrPage (pageByte 0 m (~~~ aincOn p) 0)]

/-- SETID id: the two writes that hold an identifier. -/
def pseudoSetid (id : Ident) : List Instr := [.wrIdt1 (splitHi id), .wrIdt2 (splitLo id)]

/-- SETMASK mk: the two writes that hold a mask. -/
def pseudoSetmask (mk : Ident) : List Instr := [.wrIdm1 (splitHi mk), .wrIdm2 (splitLo mk)]

/-- CONFIG mode, dlc: the configuration write of a mode, its X field zero. The length is the 4-bit
field L (log 24): 9 to 15 expand to the write that faults (30 R86). -/
def pseudoConfig (mode : Mode) (l : DataLength) : List Instr :=
  match mode with
  | .dis => [.wrCdmobDis 0 l]
  | .tx => [.wrCdmobTx 0 l]
  | .rx => [.wrCdmobRx 0 l]
  | .rxb => [.wrCdmobRxb 0 l]

/-- PUT b0, ..., bk: the data writes in their order; any number of bytes, none included (log 24). -/
def pseudoPut (bs : List Byte) : List Instr := bs.map Instr.wrMsg

end Sys2Proof.Machine
end

