-- ==== Sys2Proof/Tests/Slice0.lean ====
section
/-! SUPPORT. The model's own tests: the well-formedness smoke, words written out from the encodings of
spec/30_encoding.md, single steps with the expected results of spec/95_test_vectors.md, and, for
each statement with hypotheses, a witness that meets them together. -/

namespace Sys2Proof.Tests

open Sys2Proof Sys2Proof.Machine

/-! ### Well-formedness: each check refuses an ill-formed term -/

/-- 30 R85: RECEIVE with L = 9 is no transaction, L = 8 is one. -/
theorem test_wf_receive_length :
    Instr.wf (.hostReceive 0 9 Payload.zero) = false ∧ Instr.wf (.hostReceive 0 8 Payload.zero) = true := by
  decide

/-- 30 R90: WR.RESETREG has no row while RESET_TRIGGER_ADDR is unset. -/
theorem test_wf_reset_row :
    Instr.hasRow Params.default (.wrResetReg 0) = false ∧ Instr.hasRow Params.default .reset = true := by
  decide

/-- 00 R10: two registers at one address, a reset trigger at a register, a queue of depth 0. -/
theorem test_wf_params :
    Params.wf Params.default = true ∧
      Params.wf { Params.default with regs := { RegMap.at90can with msg := 0xED } } = false ∧
      Params.wf { Params.default with resetTrigger := some 0xED } = false ∧
      Params.wf { Params.default with txqDepth := 0 } = false := by
  decide

/-! ### Decoding: words written out from 30 R80 to R90 and 95 section 2.12, in the table's order -/

theorem test_decode_wrPage : decode true 0x0000005F Payload.zero = .ok (.wrPage 0x5F) := by decide
theorem test_decode_wrCdmobDis : decode true 0x01000035 Payload.zero = .ok (.wrCdmobDis 3 5) := by decide
theorem test_decode_wrCdmobTx : decode true 0x01000044 Payload.zero = .ok (.wrCdmobTx 0 4) := by decide
theorem test_decode_wrCdmobRx : decode true 0x01000083 Payload.zero = .ok (.wrCdmobRx 0 3) := by decide
theorem test_decode_wrCdmobRxb : decode true 0x010000C5 Payload.zero = .ok (.wrCdmobRxb 0 5) := by decide
theorem test_decode_wrMsg : decode true 0x020000AB Payload.zero = .ok (.wrMsg 0xAB) := by decide
theorem test_decode_wrIdt1 : decode true 0x03000024 Payload.zero = .ok (.wrIdt1 0x24) := by decide
theorem test_decode_wrIdt2 : decode true 0x0400007F Payload.zero = .ok (.wrIdt2 0x7F) := by decide
theorem test_decode_wrIdm1 : decode true 0x050000FF Payload.zero = .ok (.wrIdm1 0xFF) := by decide
theorem test_decode_wrIdm2 : decode true 0x060000E0 Payload.zero = .ok (.wrIdm2 0xE0) := by decide
theorem test_decode_wrResetReg : decode true 0x0700005A Payload.zero = .ok (.wrResetReg 0x5A) := by decide
theorem test_decode_rdPage : decode true 0x10000000 Payload.zero = .ok .rdPage := by decide
theorem test_decode_rdCdmob : decode true 0x11000000 Payload.zero = .ok .rdCdmob := by decide
theorem test_decode_rdMsg : decode true 0x12000000 Payload.zero = .ok .rdMsg := by decide
theorem test_decode_rdIdt1 : decode true 0x13000000 Payload.zero = .ok .rdIdt1 := by decide
theorem test_decode_rdIdt2 : decode true 0x14000000 Payload.zero = .ok .rdIdt2 := by decide
theorem test_decode_rdIdm1 : decode true 0x15000000 Payload.zero = .ok .rdIdm1 := by decide
theorem test_decode_rdIdm2 : decode true 0x16000000 Payload.zero = .ok .rdIdm2 := by decide
theorem test_decode_hostSend : decode true 0x200000FF Payload.zero = .ok (.hostSend 255) := by decide

/-- T = 0010 0001 000000000 1000 10001010110: KIND 2, SEL 1, L = 8, ID = 0x456 (95 V75). -/
theorem test_decode_hostReceive :
    decode true 0x21004456 Payload.zero = .ok (.hostReceive 0x456 8 Payload.zero) := by decide

theorem test_decode_hostTxpop : decode true 0x22000102 Payload.zero = .ok (.hostTxpop .short 2) := by
  decide
theorem test_decode_reset : decode true 0x30000000 Payload.zero = .ok .reset := by decide

/-- 95 V110 to V116, V118, V76, V86: the refused words, each with its reason. -/
theorem test_decode_refused :
    decode true 0x00000100 Payload.zero = .error .nonzeroBits ∧
      decode true 0x08000000 Payload.zero = .error .reservedSel ∧
      decode true 0x17000000 Payload.zero = .error .reservedSel ∧
      decode false 0x07000000 Payload.zero = .error .absentRow ∧
      decode true 0x23000000 Payload.zero = .error .reservedSel ∧
      decode true 0x30000001 Payload.zero = .error .nonzeroBits ∧
      decode true 0x40000000 Payload.zero = .error .reservedKind ∧
      decode true 0x21008123 Payload.zero = .error .nonzeroBits ∧
      decode true 0x21004900 Payload.zero = .error .reservedLength ∧
      decode true 0x22000302 Payload.zero = .error .reservedResult := by
  decide

/-- The table's rows decode to their constructors in the table's order. -/
theorem test_tableRows :
    opcodeRows.map (fun r => (decodeTableWord 32 r.1.toNat).map Instr.rowNumber) =
      (List.range 22).map some := by decide

/-! ### States of the tests -/

/-- The next state of a transaction, or the state itself where there is none. -/
def after (i : Instr) (s : State) : State :=
  match exec i s with
  | .next t => t
  | .fault _ | .refused _ => s

/-- Power-on of the default launch. -/
def s0 : State := State.reset

/-- The default launch without a bridge. -/
def sNoBridge : State := State.powerOn { Params.default with bridgePresent := false } none

/-- A launch with a reset-trigger address. -/
def sTrigger : State := State.powerOn { Params.default with resetTrigger := some 0x10 } none

/-- A frame. -/
def f1 : WireFrame := { id := 0x123, dlc := 4, data := #v[1, 2, 3, 4, 0, 0, 0, 0] }

/-- The queue of 95 V80, at depth 3, busy. -/
def sQueue : State :=
  { s0 with
    cfg := { Params.default with txqDepth := 3 }
    txbsy := true
    txq := [⟨2, f1⟩, ⟨0, { f1 with dlc := 8 }⟩, ⟨2, { f1 with dlc := 1 }⟩] }

/-- A full queue at the default depth 1 (95 V34). -/
def sFull : State := { s0 with cur := 1, page := 0x10, txq := [⟨1, f1⟩], txbsy := true }

/-- 95 V27: mailbox 4 as given there. -/
def sV27 : State :=
  s0.setMailbox 4
    { id := 0x7FF, mask := 0x123, data := Payload.zero, dlc := 8, idx := 6, mode := .rx }

/-- 95 V71: mailbox 0 filters identifiers 0x100 to 0x1FF; mailbox 4 takes every one. -/
def sRx : State :=
  (s0.setMailbox 0
    { id := 0x100, mask := 0x700, data := Payload.zero, dlc := 0, idx := 0, mode := .rx }).setMailbox 4
    { id := 0, mask := 0, data := Payload.zero, dlc := 0, idx := 0, mode := .rx }

/-- An agent's turn with one request. -/
def offer (s : State) (a : Agent) (q : Request) : State :=
  { s with turns := [a], inbox := s.inbox.put a [q] }

/-! ### Single transactions: the vectors of spec/95_test_vectors.md -/

/-- V26: reselecting the same mailbox commits the shadow and clears the ignored bits. -/
theorem test_wrPage_reselect :
    let t := after (.wrPage 0) { s0 with idt1 := 0x24, idt2 := 0x7F, cdmob := 0x35, page := 3 }
    (t.mailbox 0).id = 0x123 ∧ (t.mailbox 0).dlc = 5 ∧ (t.mailbox 0).idx = 3 ∧ t.cdmob = 0x05 ∧
      t.idt2 = 0x60 ∧ t.page = 0x03 ∧ t.hist = [.mailboxSwitch 0] := by
  decide

/-- V27: the written index is ignored, the stored one loaded. -/
theorem test_wrPage_load :
    let t := after (.wrPage 0x41) sV27
    t.cur = 4 ∧ t.page = 0x46 ∧ t.cdmob = 0x88 ∧ t.idt1 = 0xFF ∧ t.idt2 = 0xE0 ∧ t.idm1 = 0x24 ∧
      t.idm2 = 0x60 := by
  decide

/-- V25: bit 7 is no part of the mailbox number; 7 is out of range. -/
theorem test_wrPage_fault :
    let t := after (.wrPage 0xF0) s0
    t.fault = some (.mobIndex 7) ∧ t.hist = [.fault (.mobIndex 7)] ∧ t.page = 0 := by
  decide

/-- V31: bits 5:4 are stored. -/
theorem test_wrCdmobDis :
    let t := after (.wrCdmobDis 3 5) s0
    (t.mailbox 0).dlc = 5 ∧ (t.mailbox 0).mode = .dis ∧ t.cdmob = 0x35 ∧ t.hist = [] := by
  decide

/-- V32: a length of 9 faults and stores nothing. -/
theorem test_wrCdmobDis_fault :
    let t := after (.wrCdmobDis 0 9) s0
    t.fault = some (.dlc 0x09) ∧ t.cdmob = 0 ∧ (t.mailbox 0).dlc = 0 := by
  decide

/-- V33: a transmit write with length 0 from mailbox 1. -/
theorem test_wrCdmobTx :
    let t := after (.wrCdmobTx 0 0) { s0 with cur := 1, page := 0x10 }
    let f : WireFrame := { id := 0, dlc := 0, data := Payload.zero }
    t.txbsy = true ∧ t.txq = [⟨1, f⟩] ∧ t.hist = [.transmit 1, .txQueued 1 f] := by
  decide

/-- V34 and V36: at a full queue a legal transmit write changes nothing, and one of length 15
faults. -/
theorem test_wrCdmobTx_full :
    after (.wrCdmobTx 0 1) sFull = sFull ∧
      (after (.wrCdmobTx 0 15) sFull).fault = some (.dlc 0x4F) := by
  decide

/-- V37: the committed filter. -/
theorem test_wrCdmobRx :
    let t := after (.wrCdmobRx 0 0) { s0 with idt1 := 0x20, idm1 := 0xFF, idm2 := 0xE0 }
    (t.mailbox 0).id = 0x100 ∧ (t.mailbox 0).mask = 0x7FF ∧ (t.mailbox 0).mode = .rx := by
  decide

/-- V38: mode RXB. -/
theorem test_wrCdmobRxb :
    let t := after (.wrCdmobRxb 0 8) s0
    (t.mailbox 0).mode = .rxb ∧ (t.mailbox 0).dlc = 8 ∧ t.cdmob = 0xC8 := by
  decide

/-- V45: the index wraps. -/
theorem test_wrMsg_wrap :
    let t := after (.wrMsg 0xAB) { s0 with cur := 2, page := 0x27 }
    (t.mailbox 2).data[7] = 0xAB ∧ t.page = 0x20 := by
  decide

/-- V46: with auto-increment off the index stays. -/
theorem test_wrMsg_noinc :
    let t := after (.wrMsg 0x11) { s0 with cur := 2, page := 0x2B }
    (t.mailbox 2).data[3] = 0x11 ∧ t.page = 0x2B := by
  decide

/-- V51: a written IDT2 keeps its low bits, which take no part in the identifier. -/
theorem test_wrIdt2 :
    let t := after (.wrIdt2 0x7F) (after (.wrIdt1 0x24) s0)
    t.idt2 = 0x7F ∧ t.shadowId = 0x123 ∧ (t.mailbox 0).id = 0 := by
  decide

/-- V53: the shadow mask. -/
theorem test_wrIdm2 :
    (after (.wrIdm2 0xE0) (after (.wrIdm1 0xFF) s0)).shadowMask = 0x7FF := by
  decide

/-- V60: reads of the mask registers after a load. -/
theorem test_rdIdm :
    (after .rdIdm1 (after (.wrPage 0x41) sV27)).progByte = some 0x24 ∧
      (after .rdIdm2 (after (.wrPage 0x41) sV27)).progByte = some 0x60 := by
  decide

/-- V55 and V59: reads return the shadow bytes. -/
theorem test_rdPage :
    (after .rdPage { s0 with page := 0x20 }).progByte = some 0x20 ∧
      (after .rdIdt2 { s0 with idt2 := 0x7F }).progByte = some 0x7F ∧
      (after .rdIdt1 { s0 with idt1 := 0x24 }).progByte = some 0x24 ∧
      (after .rdCdmob { s0 with cdmob := 0x44 }).progByte = some 0x44 := by
  decide

/-- V57: a read of MSG leaves PAGE unchanged. -/
theorem test_rdMsg : (after .rdMsg { s0 with page := 0x03 }).page = 0x03 := by decide

/-- V68: SEND 255 faults with the whole index recorded. -/
theorem test_hostSend_fault : (after (.hostSend 255) s0).fault = some (.mobIndex 255) := by decide

/-- V54: SEND reads the bank, not the shadow. -/
theorem test_hostSend_bank :
    (after (.hostSend 3) { s0 with cur := 3, page := 0x30, idt1 := 0xFF }).lookupFrame =
      some { id := 0, dlc := 0, data := Payload.zero } := by
  decide

/-- V71, with V70's tie-break: the lowest of two matching mailboxes is delivered to. -/
theorem test_hostReceive_lowest :
    let t := after (.hostReceive 0x1FF 1 #v[0x42, 0, 0, 0, 0, 0, 0, 0]) sRx
    t.hrxResult = some (.matched 0) ∧ (t.mailbox 0).data[0] = 0x42 ∧ (t.mailbox 0).dlc = 1 ∧
      (t.mailbox 0).id = 0x100 ∧ t.idt1 = 0x3F ∧ t.idt2 = 0xE0 := by
  decide

/-- 41 R150: the host writes the frame a TXPOP took, not the one a SEND looked up after it. -/
theorem test_endpointBytes :
    (after (.hostSend 3) (after (.hostTxpop .ok 2) sQueue)).endpointBytes =
        some [0x23, 0x01, 0, 0, 4, 0, 0, 0, 1, 2, 3, 4, 0, 0, 0, 0] ∧
      (after (.hostSend 3) s0).endpointBytes = none := by
  decide

/-- V73: no mailbox in mode RX, no match. -/
theorem test_hostReceive_noMatch :
    let t := after (.hostReceive 0 0 Payload.zero) s0
    t.hrxResult = some .noMatch ∧ t.hist = [.rxNoMatch ⟨0, 0, Payload.zero⟩] := by
  decide

/-- V80: the oldest entry of mailbox 0 leaves, the others keep their order. -/
theorem test_hostTxpop_ok :
    let t := after (.hostTxpop .ok 0) sQueue
    t.txq = [⟨2, f1⟩, ⟨2, { f1 with dlc := 1 }⟩] ∧ t.takenFrame = some { f1 with dlc := 8 } ∧
      t.hist = [.txWritten 0 { f1 with dlc := 8 }] := by
  decide

/-- V84 and V85: an endpoint error, and no entry of mailbox 3. -/
theorem test_hostTxpop_error :
    (after (.hostTxpop .error 2) sQueue).fault = some (.hostWrite 2) ∧
      (after (.hostTxpop .error 2) sQueue).txq = sQueue.txq ∧
      after (.hostTxpop .ok 3) sQueue = sQueue := by
  decide

/-- V83: on_drain clears the busy flag when the queue empties. -/
theorem test_hostTxpop_drain :
    (after (.hostTxpop .ok 1)
      { sFull with cfg := { Params.default with txbsyClear := .onDrain } }).txbsy = false ∧
      (after (.hostTxpop .ok 1) sFull).txbsy = true := by
  decide

/-- V100 and V102: RESET makes `ainc_en` hold under both polarities. -/
theorem test_reset :
    (after .reset { s0 with page := 0x2B }).page = 0x23 ∧
      (after .reset { s0 with
        page := 0x20, cfg := { Params.default with aincActiveLow := false } }).page = 0x28 := by
  decide

/-- V105: a write of any byte to the reset-trigger register. -/
theorem test_wrResetReg : (after (.wrResetReg 0x5A) { sTrigger with page := 0x2B }).page = 0x23 := by
  decide

/-- V90, V91: the serialized frame in both byte orders. -/
theorem test_serialize :
    serialize .little f1 = [0x23, 0x01, 0, 0, 4, 0, 0, 0, 1, 2, 3, 4, 0, 0, 0, 0] ∧
      serialize .big f1 = [0, 0, 0x01, 0x23, 4, 0, 0, 0, 1, 2, 3, 4, 0, 0, 0, 0] := by
  decide

/-- V93, V95, V96: the flag bits are ignored; a length of 9 and a short read are dropped. -/
theorem test_deserialize :
    deserialize .little [0x23, 0x01, 0, 0x80, 2, 0, 0, 0, 0xAA, 0xBB, 0, 0, 0, 0, 0, 0] =
        some { id := 0x123, dlc := 2, data := #v[0xAA, 0xBB, 0, 0, 0, 0, 0, 0] } ∧
      deserialize .little [0x23, 0x01, 0, 0, 9, 0, 0, 0, 0, 0, 0, 0, 0, 0, 0, 0] = none ∧
      deserialize .little [0x23, 0x01, 0, 0, 2, 0, 0, 0, 0, 0, 0, 0, 0, 0, 0] = none := by
  decide

/-- Whether an outcome is a next state. -/
def isNext : Result → Bool
  | .next _ => true
  | .fault _ | .refused _ => false

/-- Every row's match word, placed after reset, is taken by the next step. -/
theorem test_step_runs_every_row :
    (opcodeRows.all fun r => isNext (step (State.reset.withFetchWord 32 r.1.toNat))) = true := by
  decide

/-- 30 R89 and 40 R101, R106: the transactions of SELECT 2, SELECT 6, SELECT.NOINC 2, SETID 0x123
and CONFIG TX, 4. -/
theorem test_pseudo :
    (pseudoSelect Params.default 2).map encodeWord = [0x00000020] ∧
      (pseudoSelect Params.default 6).map encodeWord = [0x00000060] ∧
      (pseudoSelectNoinc Params.default 2).map encodeWord = [0x00000028] ∧
      (pseudoSetid 0x123).map encodeWord = [0x03000024, 0x04000060] ∧
      (pseudoConfig .tx 4).map encodeWord = [0x01000044] := by
  decide

/-- 70 R233: P5's faulted state is no good end; power-on with nothing pending is one. -/
theorem test_endedWell : EndedWell s0 ∧ ¬ EndedWell (after (.wrCdmobTx 0 9) s0) := by decide

/-! ### Witnesses of the statements' hypotheses -/

theorem witness_decodeOfEncode : Instr.wf (.hostReceive 0x7FF 8 Payload.zero) = true := by decide

theorem witness_acceptedWords : decode false 0x010000C8 Payload.zero = .ok (.wrCdmobRxb 0 8) := by
  decide

theorem witness_atMostOneRow :
    rowMatches 0x21007FFF (opcodeRows[19]'(by decide)) = true ∧ 19 < opcodeRows.length := by
  decide

theorem witness_resetRow :
    decode true 0x06000000 Payload.zero = .ok (.wrIdm2 0) ∧ Instr.rowNumber (.wrIdm2 0) ≠ 10 ∧
      decode false 0x06000000 Payload.zero = .ok (.wrIdm2 0) := by
  decide

/-- The agent's turn with a word that decodes to an operation of its own, enabled. -/
theorem witness_stepRuns :
    let s := offer s0 .hrx (.word 0x21004456 Payload.zero)
    s.fault = none ∧ s.turns = .hrx :: [] ∧
      s.inbox.of .hrx = .word 0x21004456 Payload.zero :: [] ∧
      decode s.cfg.resetTrigger.isSome 0x21004456 Payload.zero =
        .ok (.hostReceive 0x456 8 Payload.zero) ∧
      agentOf (.hostReceive 0x456 8 Payload.zero) = .hrx ∧
      waits (.hostReceive 0x456 8 Payload.zero) s = false := by
  decide

/-- A byte access of the program: a write of IDT1 and a read of PAGE. -/
theorem witness_stepRuns_bus :
    let s := offer s0 .prog (.busWrite 0xF3 0x24)
    let u := offer s0 .prog (.busRead 0xED)
    (s.fault = none ∧ s.turns = .prog :: [] ∧ s.inbox.prog = .busWrite 0xF3 0x24 :: [] ∧
      (Request.busWrite 0xF3 0x24).present s.cfg = .transaction (.wrIdt1 0x24) ∧
      waits (.wrIdt1 0x24) s = false) ∧
    (u.fault = none ∧ u.turns = .prog :: [] ∧ u.inbox.prog = .busRead 0xED :: [] ∧
      (Request.busRead 0xED).present u.cfg = .transaction .rdPage ∧ waits .rdPage u = false) := by
  decide

/-- The held transmit write of V34, and a TXPOP with no entry, are not enabled. -/
theorem witness_staysPending :
    let s := offer sFull .prog (.word 0x01000041 Payload.zero)
    let u := offer s0 .htx (.word 0x22000003 Payload.zero)
    (s.fault = none ∧ s.turns = .prog :: [] ∧
      s.inbox.of .prog = .word 0x01000041 Payload.zero :: [] ∧
      decode s.cfg.resetTrigger.isSome 0x01000041 Payload.zero = .ok (.wrCdmobTx 0 1) ∧
      agentOf (.wrCdmobTx 0 1) = .prog ∧ waits (.wrCdmobTx 0 1) s = true) ∧
    (u.fault = none ∧ u.turns = .htx :: [] ∧
      u.inbox.of .htx = .word 0x22000003 Payload.zero :: [] ∧
      decode u.cfg.resetTrigger.isSome 0x22000003 Payload.zero = .ok (.hostTxpop .ok 3) ∧
      agentOf (.hostTxpop .ok 3) = .htx ∧ waits (.hostTxpop .ok 3) u = true) := by
  decide

/-- The held transmit write of V34 as the program's byte access. -/
theorem witness_staysPending_bus :
    let s := offer sFull .prog (.busWrite 0xEF 0x41)
    s.fault = none ∧ s.turns = .prog :: [] ∧ s.inbox.prog = .busWrite 0xEF 0x41 :: [] ∧
      (Request.busWrite 0xEF 0x41).present s.cfg = .transaction (.wrCdmobTx 0 1) ∧
      waits (.wrCdmobTx 0 1) s = true := by
  decide

theorem witness_faulted : (after (.wrPage 0x60) s0).fault = some (.mobIndex 6) := by decide

theorem witness_noTransaction :
    let s := offer s0 .prog (.word 0x40000000 Payload.zero)
    s.fault = none ∧ s.turns = .prog :: [] ∧
      s.inbox.of .prog = .word 0x40000000 Payload.zero :: [] ∧
      decode s.cfg.resetTrigger.isSome 0x40000000 Payload.zero = .error .reservedKind := by
  decide

theorem witness_wrongAgent :
    let s := offer s0 .htx (.word 0x00000020 Payload.zero)
    s.fault = none ∧ s.turns = .htx :: [] ∧
      s.inbox.of .htx = .word 0x00000020 Payload.zero :: [] ∧
      decode s.cfg.resetTrigger.isSome 0x00000020 Payload.zero = .ok (.wrPage 0x20) ∧
      agentOf (.wrPage 0x20) ≠ .htx := by
  decide

/-- A byte access from the inbound loop, and bytes of the endpoint from the transmit consumer. -/
theorem witness_wrongAgent_requests :
    let s := offer s0 .hrx (.busRead 0xED)
    let u := offer s0 .htx (.hostRead [])
    (s.fault = none ∧ s.turns = .hrx :: [] ∧ s.inbox.of .hrx = .busRead 0xED :: [] ∧
      Agent.hrx ≠ .prog) ∧
    (u.fault = none ∧ u.turns = .htx :: [] ∧ u.inbox.of .htx = .hostRead [] :: [] ∧
      Agent.htx ≠ .hrx) := by
  decide

theorem witness_busMap :
    Params.wf Params.default = true ∧
      Params.wf { Params.default with resetTrigger := some 0xEE } = true := by
  decide

theorem witness_unseen :
    let s := offer s0 .prog (.busWrite 0xEE 1)
    let u := offer s0 .prog (.busRead 0xEE)
    (s.fault = none ∧ s.turns = .prog :: [] ∧ 0xEE ∉ s.cfg.regs.list ∧
      s.cfg.resetTrigger ≠ some 0xEE ∧ s.inbox.prog = .busWrite 0xEE 1 :: []) ∧
    (u.fault = none ∧ u.turns = .prog :: [] ∧ 0xEE ∉ u.cfg.regs.list ∧
      u.cfg.resetTrigger ≠ some 0xEE ∧ u.inbox.prog = .busRead 0xEE :: []) := by
  decide

/-- N = 5, the highest legal number, and N = 6 and 7, the two illegal ones. -/
theorem witness_select :
    s0.fault = none ∧ ((0xDF#8).extractLsb' 4 3).toNat = (5 : MobId).val ∧
      6 ≤ ((0x60#8).extractLsb' 4 3).toNat ∧ 6 ≤ ((0xF0#8).extractLsb' 4 3).toNat := by
  decide

/-- Between the two selects: a select of 2, a byte and an identifier there, a receive that matches
nothing. -/
def between : List Instr :=
  [.wrPage 0x20, .wrMsg 7, .wrIdt1 9, .hostReceive 0x55 1 Payload.zero]

/-- The state that selecting 1, `between` and selecting 0 again leaves. -/
def roundTripState : State := after (.wrPage 0) (between.foldl (fun s i => after i s)
  (after (.wrPage 0x10) s0))

theorem witness_roundTrip :
    ((0x10#8).extractLsb' 4 3).toNat ≠ s0.cur.val ∧ ((0x00#8).extractLsb' 4 3).toNat = s0.cur.val ∧
      (∀ v, Instr.wrPage v ∈ between → (v.extractLsb' 4 3).toNat ≠ s0.cur.val) ∧
      runInstrs (.wrPage 0x10 :: between ++ [.wrPage 0x00]) s0 = .next roundTripState ∧
      roundTripState.fault = none ∧
      roundTripState.hist = s0.hist ++ [.mailboxSwitch 1, .mailboxSwitch 2,
        .rxNoMatch ⟨0x55, 1, Payload.zero⟩, .mailboxSwitch 0] ∧
      ∀ m f, Event.rxMatched m f ∉ [Event.mailboxSwitch 1, .mailboxSwitch 2,
        .rxNoMatch ⟨0x55, 1, Payload.zero⟩, .mailboxSwitch 0] := by
  refine ⟨by decide, by decide, ?_, rfl, by decide, by decide, ?_⟩
  · intro v hv
    simp only [between, List.mem_cons, List.not_mem_nil, or_false, reduceCtorEq,
      Instr.wrPage.injEq] at hv
    subst hv
    decide
  · simp

/-- Lengths 8 and 9, where the two clauses of a configuration write meet. -/
theorem witness_config :
    s0.fault = none ∧ (8#4).toNat ≤ 8 ∧ 8 < (9#4).toNat ∧ 8 < (15#4).toNat := by
  decide

theorem witness_transmit :
    s0.fault = none ∧ (8#4).toNat ≤ 8 ∧ s0.cfg.bridgePresent = true ∧
      s0.txq.length < s0.cfg.txqDepth := by
  decide

theorem witness_transmit_noBridge :
    sNoBridge.fault = none ∧ sNoBridge.cfg.bridgePresent = false := by decide

theorem witness_transmit_full :
    sFull.fault = none ∧ sFull.cfg.bridgePresent = true ∧ sFull.cfg.txqDepth ≤ sFull.txq.length := by
  decide

theorem witness_popReleases :
    sFull.fault = none ∧ sFull.cfg.bridgePresent = true ∧ QueueLegal sFull ∧
      sFull.txq.length = sFull.cfg.txqDepth ∧ WriteResult.short ≠ .error ∧
      (∃ e ∈ sFull.txq, e.m.val = (1#8).toNat) ∧ (8#4).toNat ≤ 8 := by
  decide

theorem witness_sendAfterCommit :
    s0.fault = none ∧ s0.cfg.bridgePresent = true ∧ (8#4).toNat ≤ 8 ∧ (0#8).toNat = s0.cur.val ∧
      s0.txq.length < s0.cfg.txqDepth := by
  decide

/-- Auto-increment on and off. -/
theorem witness_dataWrite :
    s0.fault = none ∧ AincEnabled s0 ∧ ¬ AincEnabled { s0 with page := 0x08 } := by decide

/-- Indices 0 and 5, and the two faulting indices at the ends of the range 6 to 255. -/
theorem witness_send :
    s0.fault = none ∧ s0.cfg.bridgePresent = true ∧ (5#8).toNat = (5 : MobId).val ∧
      6 ≤ (6#8).toNat ∧ 6 ≤ (255#8).toNat := by
  decide

theorem witness_receive :
    sRx.fault = none ∧ sRx.cfg.bridgePresent = true ∧ (8#4).toNat ≤ 8 ∧
      Accepts (sRx.mailbox 4) 0x200 ∧ (∀ k : MobId, k < 4 → ¬ Accepts (sRx.mailbox k) 0x200) ∧
      Accepts (sRx.mailbox 0) 0x1FF := by
  decide

theorem witness_receive_noMatch :
    s0.fault = none ∧ s0.cfg.bridgePresent = true ∧ (∀ m, ¬ Accepts (s0.mailbox m) 0x100) ∧
      ∀ m, (s0.mailbox m).mode ≠ .rx := by
  decide

theorem witness_receive_two :
    (0 : MobId) < 4 ∧ Accepts (sRx.mailbox 0) 0x100 ∧ Accepts (sRx.mailbox 4) 0x100 ∧
      exec (.hostReceive 0x100 2 Payload.zero) sRx =
        .next (after (.hostReceive 0x100 2 Payload.zero) sRx) :=
  ⟨by decide, by decide, by decide, rfl⟩

/-- The oldest entry of mailbox 0, with one of another mailbox before it. -/
theorem witness_pop :
    sQueue.fault = none ∧ sQueue.cfg.bridgePresent = true ∧
      sQueue.txq = [⟨2, f1⟩] ++ ⟨0, { f1 with dlc := 8 }⟩ :: [⟨2, { f1 with dlc := 1 }⟩] ∧
      (∀ x ∈ [TxEntry.mk 2 f1], x.m.val ≠ (0#8).toNat) ∧
      ∀ e ∈ sQueue.txq, e.m.val ≠ (6#8).toNat := by
  decide

theorem witness_serializer :
    f1.dlc.toNat ≤ 8 ∧ (8#8).toNat ≤ 8 ∧ (word32 .big 0 0 7 0xFF).toNat < 2 ^ 11 := by decide

theorem witness_readFrame :
    let s := offer s0 .hrx (.hostRead ([0x23, 1, 0, 0, 8, 0, 0, 0] ++ f1.data.toList))
    s.fault = none ∧ s.turns = .hrx :: [] ∧
      s.inbox.hrx = .hostRead ([0x23, 1, 0, 0, 8, 0, 0, 0] ++ f1.data.toList) :: [] ∧
      (8#8).toNat ≤ 8 := by
  decide

/-- A read of 15 bytes, and one of 16 with a length of 9. -/
theorem witness_badFrame :
    let b := List.replicate 15 (0#8)
    let c := [0x23, 1, 0, 0, 9, 0, 0, 0] ++ f1.data.toList
    let s := offer s0 .hrx (.hostRead b)
    let u := offer s0 .hrx (.hostRead c)
    (s.fault = none ∧ s.cfg.bridgePresent = true ∧ s.turns = .hrx :: [] ∧
      s.inbox.hrx = .hostRead b :: [] ∧ b.length < 16) ∧
    (u.fault = none ∧ u.cfg.bridgePresent = true ∧ u.turns = .hrx :: [] ∧
      u.inbox.hrx = .hostRead c :: [] ∧ c.length = 16 ∧ getElem? c 4 = some 9 ∧ 8 < (9#8).toNat) := by
  decide

theorem witness_resetReg :
    sTrigger.fault = none ∧ sTrigger.cfg.resetTrigger.isSome = true := by decide

/-- A step that takes a transaction, from a state that meets every invariant. -/
theorem witness_invariants :
    let s := offer sFull .htx (.word 0x22000001 Payload.zero)
    RegisterInvariant s ∧ QueueLegal s ∧ NoBridgeNoQueue s ∧
      step s = .next (after (.hostTxpop .ok 1) (s.takeRequest .htx)) :=
  ⟨by decide, by decide, by decide, rfl⟩

theorem witness_modeAgreement :
    let s := offer s0 .prog (.word 0x00000010 Payload.zero)
    ModeAgrees s ∧ step s = .next (after (.wrPage 0x10) (s.takeRequest .prog)) :=
  ⟨by decide, rfl⟩

theorem witness_noBridge_step :
    let s := offer sNoBridge .prog (.word 0x01000040 Payload.zero)
    NoBridgeNoQueue s ∧ s.cfg.bridgePresent = false ∧
      step s = .next (after (.wrCdmobTx 0 0) (s.takeRequest .prog)) :=
  ⟨by decide, by decide, rfl⟩

/-- A transaction that answers a next state: the hypothesis of the rules over all instructions. -/
theorem witness_exec : exec (.wrPage 0x20) s0 = .next (after (.wrPage 0x20) s0) := rfl

theorem witness_curChanges : (after (.wrPage 0x20) s0).cur ≠ s0.cur := by decide

theorem witness_modeChanges :
    ModeAgrees s0 ∧ exec (.wrCdmobTx 0 0) s0 = .next (after (.wrCdmobTx 0 0) s0) ∧
      ((after (.wrCdmobTx 0 0) s0).mailbox 0).mode ≠ (s0.mailbox 0).mode :=
  ⟨by decide, rfl, by decide⟩

/-- A slot changed by a receive that is not the current one, and data bytes changed by a write. -/
theorem witness_bankChanges :
    (after (.hostReceive 0x200 1 Payload.zero) sRx).mailbox 4 ≠ sRx.mailbox 4 ∧
      ((after (.wrMsg 1) s0).mailbox 0).data ≠ (s0.mailbox 0).data ∧
      exec (.wrMsg 1) s0 = .next (after (.wrMsg 1) s0) ∧
      exec (.hostReceive 0x200 1 Payload.zero) sRx =
        .next (after (.hostReceive 0x200 1 Payload.zero) sRx) := by
  refine ⟨?_, by decide, rfl, rfl⟩
  intro h
  exact absurd (congrArg Mailbox.dlc h) (by decide)

theorem witness_indexChanges :
    (after (.wrMsg 1) s0).page.extractLsb' 0 3 ≠ s0.page.extractLsb' 0 3 ∧
      (after (.wrPage 0x41) sV27).page.extractLsb' 0 3 ≠ sV27.page.extractLsb' 0 3 := by
  decide

theorem witness_identifierChanges :
    (after (.wrIdt1 1) s0).idt1 ≠ s0.idt1 ∧ (after (.wrIdm2 1) s0).idm2 ≠ s0.idm2 ∧
      (after (.hostReceive 0x200 1 Payload.zero) sRx).idt1 ≠ sRx.idt1 := by
  decide

theorem witness_busyFlag :
    (s0.txbsy = false ∧ (after (.wrCdmobTx 0 0) s0).txbsy = true) ∧
      let s := { sFull with cfg := { Params.default with txbsyClear := .onDrain } }
      s.txbsy = true ∧ (after (.hostTxpop .ok 1) s).txbsy = false := by
  decide

/-- Each of the causes of a fault. -/
theorem witness_faultCauses :
    (after (.wrPage 0x70) s0).fault = some (.mobIndex 7) ∧
      (after (.hostSend 6) s0).fault = some (.mobIndex 6) ∧
      (after (.hostTxpop .error 1) sFull).fault = some (.hostWrite 1) ∧
      (after (.wrCdmobRxb 0 9) s0).fault = some (.dlc 0xC9) ∧
      exec (.wrPage 0x70) s0 = .next (after (.wrPage 0x70) s0) :=
  ⟨by decide, by decide, by decide, by decide, rfl⟩

theorem witness_receiveHazards :
    exec (.hostReceive 0x1AB 1 Payload.zero) sRx =
        .next (after (.hostReceive 0x1AB 1 Payload.zero) sRx) ∧
      (after (.hostReceive 0x1AB 1 Payload.zero) sRx).hrxResult = some (.matched sRx.cur) ∧
      ((0x50#8).extractLsb' 4 3).toNat < 6 ∧ (8#4).toNat ≤ 8 ∧
      sRx.txq.length < sRx.cfg.txqDepth :=
  ⟨rfl, by decide, by decide, by decide, by decide⟩

end Sys2Proof.Tests
end

section
/-! SUPPORT. What no transaction touches: the launch parameters, the agents' requests and their turns
(00 R10, 20 R60, R61). -/

namespace Sys2Proof.Machine

/-- t has the launch, the pending requests and the turns of s: what surrounds the block. -/
def SameSurroundings (s t : State) : Prop :=
  t.cfg = s.cfg ∧ t.inbox = s.inbox ∧ t.turns = s.turns

theorem transmit_sameSurroundings (s : State) (v : Byte) : SameSurroundings s (s.transmit v) := by
  rw [transmit_eq]
  exact ⟨rfl, rfl, rfl⟩

theorem receive_sameSurroundings (s : State) (id : Ident) (l : DataLength) (d : Payload) :
    SameSurroundings s (s.receive id l d) := by
  cases h : s.findMatch id with
  | some m =>
    rw [receive_of_match h]
    exact ⟨rfl, rfl, rfl⟩
  | none =>
    rw [receive_of_noMatch h]
    exact ⟨rfl, rfl, rfl⟩

/-- Only the effects of a transmit write and of a RECEIVE branch; every other effect is an update of
other fields. -/
theorem Taken.sameSurroundings {i : Instr} {s t : State} (h : Taken i s t) :
    SameSurroundings s t := by
  cases h
  case tx => exact transmit_sameSurroundings s _
  case receive id l d _ _ => exact receive_sameSurroundings s id l d
  all_goals exact ⟨rfl, rfl, rfl⟩

theorem exec_sameSurroundings {i : Instr} {s t : State} (h : exec i s = .next t) :
    SameSurroundings s t :=
  (exec_taken h).2.sameSurroundings

theorem Stepped.cfg_eq {s t : State} (h : Stepped s t) : t.cfg = s.cfg := by
  cases h with
  | idle => rfl
  | pass => exact State.passTurn_cfg s
  | unseen a => exact State.takeRequest_cfg s a
  | dropped b => rw [State.emit_cfg, State.takeRequest_cfg]
  | taken _ a _ htaken =>
    obtain ⟨hcfg, -, -⟩ := htaken.sameSurroundings
    exact hcfg.trans (State.takeRequest_cfg s a)

theorem step_cfg_eq {s t : State} (h : step s = .next t) : t.cfg = s.cfg :=
  (step_stepped h).2.cfg_eq

/-- Settles O50: case by case over what a transaction, and then a step, can have done. -/
theorem parametersAndRequestsAreLeftAlone : Obligations.ParametersAndRequestsAreLeftAlone :=
  ⟨fun _ _ => step_cfg_eq, fun _ _ _ => exec_sameSurroundings⟩

end Sys2Proof.Machine
end

section
/-! SUPPORT. The composite effects by what they leave unchanged: the fields a RECEIVE does not write,
and the slots and data bytes a snapshot, a commit, a data write and a delivery keep (10 R27). -/

namespace Sys2Proof.Machine

variable {s : State} {v : Byte} {k : MobId}

/-! ### The fields of a RECEIVE (41 R142, R145) -/

/-- The frame of a RECEIVE, matched or not. -/
theorem receive_eq (s : State) (id : Ident) (l : DataLength) (d : Payload) :
    s.receive id l d =
      { s with
        mob := (s.receive id l d).mob
        idt1 := (s.receive id l d).idt1
        idt2 := (s.receive id l d).idt2
        draws := (s.receive id l d).draws
        hrxResult := (s.receive id l d).hrxResult
        hist := (s.receive id l d).hist } := by
  cases h : s.findMatch id with
  | some m => simp only [receive_of_match h]
  | none => simp only [receive_of_noMatch h]

/-- A RECEIVE appends its one event. -/
theorem receive_hist_prefix (s : State) (id : Ident) (l : DataLength) (d : Payload) :
    s.hist <+: (s.receive id l d).hist := by
  cases h : s.findMatch id with
  | some m => rw [receive_of_match h]; exact List.prefix_append ..
  | none => rw [receive_of_noMatch h]; exact List.prefix_append ..

/-- After a match the bank is the one the delivery leaves. -/
theorem receive_mailbox_of_match {m : MobId} {id : Ident} {l : DataLength} {d : Payload}
    (h : s.findMatch id = some m) :
    (s.receive id l d).mailbox k = (s.deliver m id l d).mailbox k :=
  State.mailbox_congr (by rw [receive_of_match h]) k

/-- A RECEIVE changes no slot but the matched one. -/
theorem receive_mailbox_change {id : Ident} {l : DataLength} {d : Payload}
    (h : (s.receive id l d).mailbox k ≠ s.mailbox k) :
    (s.receive id l d).hrxResult = some (.matched k) := by
  cases hm : s.findMatch id with
  | some m =>
    have hk : k = m := by
      by_contra hne
      exact h (by rw [receive_mailbox_of_match hm, deliver_mailbox, if_neg hne])
    rw [receive_of_match hm, hk]
  | none =>
    rw [receive_of_noMatch hm] at h
    exact absurd rfl h

/-- A RECEIVE writes the shadow identifier only when it matched. -/
theorem receive_idt_change {id : Ident} {l : DataLength} {d : Payload}
    (h : ¬ ((s.receive id l d).idt1 = s.idt1 ∧ (s.receive id l d).idt2 = s.idt2)) :
    ∃ m, (s.receive id l d).hrxResult = some (.matched m) := by
  cases hm : s.findMatch id with
  | some m => exact ⟨m, by rw [receive_of_match hm]⟩
  | none =>
    rw [receive_of_noMatch hm] at h
    exact absurd ⟨rfl, rfl⟩ h

/-- A RECEIVE brings its own length into the bank, and no other. -/
theorem receive_dlc_le (id : Ident) {l : DataLength} (d : Payload) (hl : l.toNat ≤ 8)
    (h : ∀ m, (s.mailbox m).dlc.toNat ≤ 8) : ((s.receive id l d).mailbox k).dlc.toNat ≤ 8 := by
  cases hm : s.findMatch id with
  | some m =>
    rw [receive_mailbox_of_match hm, deliver_mailbox]
    split
    · exact hl
    · exact h k
  | none =>
    rw [receive_of_noMatch hm]
    exact h k

/-! ### The bank under the program's writes (10 R27) -/

theorem snapshot_mailbox_of_ne {c : MobId} (h : k ≠ c) :
    (s.snapshot c).mailbox k = s.mailbox k := by
  rw [snapshot_mailbox, if_neg h]

theorem commit_mailbox_of_ne (h : k ≠ s.cur) : (s.commit v).mailbox k = s.mailbox k := by
  rw [commit_mailbox, if_neg h]

theorem storeData_mailbox_of_ne (h : k ≠ s.cur) : (s.storeData v).mailbox k = s.mailbox k := by
  rw [storeData_mailbox, if_neg h]

/-- A snapshot keeps the data bytes of every mailbox. -/
@[simp] theorem snapshot_data (s : State) (c k : MobId) :
    ((s.snapshot c).mailbox k).data = (s.mailbox k).data := by
  rw [snapshot_mailbox]
  split
  · next h => rw [h]
  · rfl

/-- A commit keeps the data bytes of every mailbox. -/
@[simp] theorem commit_data (s : State) (v : Byte) (k : MobId) :
    ((s.commit v).mailbox k).data = (s.mailbox k).data := by
  rw [commit_mailbox]
  split
  · next h => rw [h]
  · rfl

/-- A data write keeps the length of every mailbox. -/
@[simp] theorem storeData_dlc (s : State) (v : Byte) (k : MobId) :
    ((s.storeData v).mailbox k).dlc = (s.mailbox k).dlc := by
  rw [storeData_mailbox]
  split
  · next h => rw [h]
  · rfl

/-- A snapshot brings the shadow length into the bank, and no other. -/
theorem snapshot_dlc_le {c : MobId} (hl : (cdmobDlc s.cdmob).toNat ≤ 8)
    (h : ∀ m, (s.mailbox m).dlc.toNat ≤ 8) : ((s.snapshot c).mailbox k).dlc.toNat ≤ 8 := by
  rw [snapshot_mailbox]
  split
  · exact hl
  · exact h k

/-- A commit brings the written length into the bank, and no other. -/
theorem commit_dlc_le (hl : (cdmobDlc v).toNat ≤ 8) (h : ∀ m, (s.mailbox m).dlc.toNat ≤ 8) :
    ((s.commit v).mailbox k).dlc.toNat ≤ 8 := by
  rw [commit_mailbox]
  split
  · exact hl
  · exact h k

end Sys2Proof.Machine
end

section
/-! SUPPORT. The step rule: what the turn itself, a dropped frame and every transaction keep, every
step keeps. Then the history, which is only appended to (10 R40). -/

namespace Sys2Proof.Machine

/-- A predicate kept by the turn's own part of a step, by a dropped frame and by every transaction is
kept by every step. -/
theorem step_keeps {P : State → Prop} (hpass : ∀ s, P s → P s.passTurn)
    (htake : ∀ s a, P s → P (s.takeRequest a))
    (hdrop : ∀ s b, P s → P (s.emit (.rxDropped b)))
    (htaken : ∀ i s t, Taken i s t → P s → P t) {s t : State} (h : step s = .next t) (hs : P s) :
    P t := by
  obtain ⟨-, hstep⟩ := step_stepped h
  cases hstep with
  | idle => exact hs
  | pass => exact hpass s hs
  | unseen a => exact htake s a hs
  | dropped b => exact hdrop _ b (htake s .hrx hs)
  | taken _ a i hi => exact htaken i _ _ hi (htake s a hs)

/-- A transaction appends to the history its events, or nothing. -/
theorem Taken.hist_prefix {i : Instr} {s t : State} (h : Taken i s t) : s.hist <+: t.hist := by
  cases h
  case tx => rw [transmit_eq, List.append_assoc]; exact List.prefix_append ..
  case receive id l d _ _ => exact receive_hist_prefix s id l d
  case selectFault | disFault | txFault | rxFault | rxbFault | sendFault | popFault | select
      | popOk | popShort | resetReg | reset => exact List.prefix_append ..
  all_goals exact List.prefix_rfl

/-- Settles O49: each part of a step keeps the old history as a beginning of the new one. -/
theorem historyIsOnlyAppendedTo : Obligations.HistoryIsOnlyAppendedTo := by
  intro s t h
  have hp : s.hist <+: t.hist :=
    step_keeps (P := fun u => s.hist <+: u.hist) (fun _ hu => hu) (fun _ _ hu => hu)
      (fun _ _ hu => hu.trans (List.prefix_append ..))
      (fun _ _ _ hi hu => hu.trans hi.hist_prefix) h List.prefix_rfl
  obtain ⟨es, hes⟩ := hp
  exact ⟨es, hes.symm⟩

end Sys2Proof.Machine
end

section
/-! SUPPORT. The register invariant (10 R41): PAGE bits 6:4 name the current mailbox, and every length
held is 0 to 8. -/

namespace Sys2Proof.Machine

/-- That `cur` is at most 5 is in its type (log 17). -/
theorem mobnbIsCur_iff {s : State} : MobnbIsCur s ↔ (pageMobnb s.page).toNat = s.cur.val :=
  ⟨fun ⟨h, _⟩ => h, fun h => ⟨h, Nat.le_of_lt_succ s.cur.isLt⟩⟩

/-- PAGE bits 6:4 and `cur` are written together by a mailbox select, and otherwise kept. -/
theorem Taken.mobnbIsCur {i : Instr} {s t : State} (h : Taken i s t) (hs : MobnbIsCur s) :
    MobnbIsCur t := by
  rw [mobnbIsCur_iff] at hs ⊢
  cases h
  case select v n hn =>
    rw [select_eq, pageMobnb_pageByte, BitVec.toNat_ofNat]
    exact Nat.mod_eq_of_lt (n.isLt.trans (by decide))
  case msg v =>
    rw [storeData_eq]
    dsimp only
    split
    · rw [pageMobnb_setIndx]; exact hs
    · exact hs
  case resetReg | reset => rw [deviceReset_eq, pageMobnb_setAinc]; exact hs
  case tx => rw [transmit_eq]; exact hs
  case receive => rw [receive_eq]; exact hs
  all_goals exact hs

/-- Lengths come from a checked configuration write, from a RECEIVE of at most 8 bytes, or from a
length already held. -/
theorem Taken.lengthsLegal {i : Instr} {s t : State} (h : Taken i s t) (hs : LengthsLegal s) :
    LengthsLegal t := by
  obtain ⟨hshadow, hbank⟩ := hs
  have hcommit (c : BitVec 2) {x : BitVec 2} {l : DataLength} (hl : l.toNat ≤ 8) :
      LengthsLegal (s.commit (cdmobByte c x l)) := by
    have hl : (cdmobDlc (cdmobByte c x l)).toNat ≤ 8 := by rwa [cdmobDlc_cdmobByte]
    exact ⟨hl, fun _ => commit_dlc_le hl hbank⟩
  cases h
  case select v n _ =>
    have hsnap (m : MobId) : ((s.snapshot s.cur).mailbox m).dlc.toNat ≤ 8 :=
      snapshot_dlc_le hshadow hbank
    refine ⟨?_, hsnap⟩
    change (cdmobDlc (s.select v n).cdmob).toNat ≤ 8
    rw [select_eq, cdmobDlc_cdmobByte]
    exact hsnap n
  case dis hl | rx hl | rxb hl => exact hcommit _ hl
  case tx x l hl _ =>
    obtain ⟨hc, hb⟩ := hcommit Mode.tx.code (x := x) hl
    refine ⟨?_, fun m => ?_⟩
    · rw [transmit_eq]; exact hc
    · rw [transmit_mailbox]; exact hb m
  case msg v => exact ⟨hshadow, fun m => by rw [storeData_dlc]; exact hbank m⟩
  case receive id l d hl _ =>
    exact ⟨by rw [receive_eq]; exact hshadow, fun _ => receive_dlc_le id d hl hbank⟩
  all_goals exact ⟨hshadow, hbank⟩

/-- Settles O45: both parts of the invariant are kept by every transaction, so by every step. -/
theorem stepKeepsTheRegisterInvariant : Obligations.StepKeepsTheRegisterInvariant := by
  intro s t hs h
  exact step_keeps (P := RegisterInvariant) (fun _ hu => hu) (fun _ _ hu => hu) (fun _ _ hu => hu)
    (fun _ _ _ hi ⟨hmob, hlen⟩ => ⟨hi.mobnbIsCur hmob, hi.lengthsLegal hlen⟩) h hs

end Sys2Proof.Machine
end

section
/-! SUPPORT. The transmit queue (10 R37, R38): its bound and the lengths of its frames. -/

namespace Sys2Proof.Machine

/-- A queue without its oldest entry of a mailbox is a part of the queue. -/
theorem takeOldest_sublist {m : Nat} {q r : List TxEntry} {e : TxEntry}
    (h : takeOldest m q = some (e, r)) : r.Sublist q := by
  obtain ⟨older, younger, rfl, rfl, -, -⟩ := takeOldest_eq_some.mp h
  exact (List.sublist_cons_self e younger).append_left older

/-- A TXPOP that leaves a part of a legal queue leaves a legal one. -/
theorem popFrame_queueLegal {s : State} {q : List TxEntry} (ev : Event) (e : TxEntry)
    (hq : q.Sublist s.txq) (hs : QueueLegal s) : QueueLegal (s.popFrame ev e q) := by
  obtain ⟨hlen, hdlc⟩ := hs
  exact ⟨hq.length_le.trans hlen, fun a ha => hdlc a (hq.subset ha)⟩

/-- With a bridge, a transmit write that does not hold finds room in the queue (41 R148). -/
theorem length_lt_of_not_txHolds {s : State} (hb : s.cfg.bridgePresent = true)
    (h : s.txHolds = false) : s.txq.length < s.cfg.txqDepth := by
  simpa [State.txHolds, hb] using h

/-- A transmit write of a legal length that does not hold keeps the queue legal. -/
theorem transmit_queueLegal {s : State} {v : Byte} (hl : (cdmobDlc v).toNat ≤ 8)
    (hh : s.txHolds = false) (hs : QueueLegal s) : QueueLegal (s.transmit v) := by
  rw [transmit_eq]
  cases hb : s.cfg.bridgePresent with
  | false => simpa using hs
  | true =>
    obtain ⟨-, hdlc⟩ := hs
    refine ⟨?_, fun e he => ?_⟩
    · simpa using length_lt_of_not_txHolds hb hh
    · obtain he | rfl : e ∈ s.txq ∨ e = ⟨s.cur, sentFrame s v⟩ := by simpa using he
      · exact hdlc e he
      · exact hl

/-- The queue is written by a transmit write and by a TXPOP alone. -/
theorem Taken.queueLegal {i : Instr} {s t : State} (h : Taken i s t) (hs : QueueLegal s) :
    QueueLegal t := by
  cases h
  case tx x l hl hh => exact transmit_queueLegal (by rwa [cdmobDlc_cdmobByte]) hh hs
  case popOk e q _ hq | popShort e q _ hq => exact popFrame_queueLegal _ e (takeOldest_sublist hq) hs
  case receive => rw [receive_eq]; exact hs
  all_goals exact hs

/-- Settles O47: every transaction keeps the queue legal, so every step does. -/
theorem stepKeepsTheQueueLegal : Obligations.StepKeepsTheQueueLegal := by
  intro s t hs h
  exact step_keeps (P := QueueLegal) (fun _ hu => hu) (fun _ _ hu => hu) (fun _ _ hu => hu)
    (fun _ _ _ hi => hi.queueLegal) h hs

end Sys2Proof.Machine
end

section
/-! SUPPORT. Who changes what: the current mailbox (10 R26), the bank (10 R27, 41 R144), the shadow
identifier and mask (10 R32, R33), and the transmit-busy flag (10 R35, 41 R151). -/

namespace Sys2Proof.Machine

variable {i : Instr} {s t : State}

theorem Taken.cur_change (h : Taken i s t) (hne : t.cur ≠ s.cur) :
    ∃ v, i = .wrPage v ∧ (pageMobnb v).toNat = t.cur.val := by
  cases h
  case select v n hn => exact ⟨v, rfl, hn⟩
  case tx => rw [transmit_eq] at hne; exact absurd rfl hne
  case receive => rw [receive_eq] at hne; exact absurd rfl hne
  all_goals exact absurd rfl hne

/-- Settles O51: of all effects, only a mailbox select writes `cur`. -/
theorem onlySelectChangesTheCurrentMailbox : Obligations.OnlySelectChangesTheCurrentMailbox :=
  fun _ _ _ h hne => (exec_taken h).2.cur_change hne

/-- The transaction is a RECEIVE that delivered to mailbox m. -/
def DeliveredTo (i : Instr) (t : State) (m : MobId) : Prop :=
  ∃ id l d, i = .hostReceive id l d ∧ t.hrxResult = some (.matched m)

theorem Taken.mailbox_change {m : MobId} (h : Taken i s t) (hne : t.mailbox m ≠ s.mailbox m) :
    m = s.cur ∨ DeliveredTo i t m := by
  cases h
  case receive id l d _ _ => exact .inr ⟨id, l, d, rfl, receive_mailbox_change hne⟩
  case select => exact .inl (not_imp_comm.mp snapshot_mailbox_of_ne hne)
  case dis | rx | rxb => exact .inl (not_imp_comm.mp commit_mailbox_of_ne hne)
  case tx =>
    rw [transmit_mailbox] at hne
    exact .inl (not_imp_comm.mp commit_mailbox_of_ne hne)
  case msg => exact .inl (not_imp_comm.mp storeData_mailbox_of_ne hne)
  all_goals exact absurd rfl hne

theorem Taken.data_change {m : MobId} (h : Taken i s t)
    (hne : (t.mailbox m).data ≠ (s.mailbox m).data) :
    (m = s.cur ∧ ∃ v, i = .wrMsg v) ∨ DeliveredTo i t m := by
  have hslot : t.mailbox m ≠ s.mailbox m := fun heq => hne (congrArg Mailbox.data heq)
  cases h
  case receive id l d _ _ => exact .inr ⟨id, l, d, rfl, receive_mailbox_change hslot⟩
  case msg v => exact .inl ⟨not_imp_comm.mp storeData_mailbox_of_ne hslot, v, rfl⟩
  case select => exact absurd (snapshot_data ..) hne
  case dis | rx | rxb => exact absurd (commit_data ..) hne
  case tx => rw [transmit_mailbox] at hne; exact absurd (commit_data ..) hne
  all_goals exact absurd rfl hne

/-- Settles O53: the slot by what each effect writes, the data bytes by which effects keep them. -/
theorem bankChangesOnlyWhereItMay : Obligations.BankChangesOnlyWhereItMay := by
  intro i s t m h
  obtain ⟨-, htaken⟩ := exec_taken h
  exact ⟨htaken.mailbox_change, htaken.data_change⟩

theorem Taken.idt_change (h : Taken i s t) (hne : ¬ (t.idt1 = s.idt1 ∧ t.idt2 = s.idt2)) :
    (∃ v, i = .wrIdt1 v ∨ i = .wrIdt2 v ∨ i = .wrPage v) ∨ ∃ m, DeliveredTo i t m := by
  cases h
  case idt1 v => exact .inl ⟨v, .inl rfl⟩
  case idt2 v => exact .inl ⟨v, .inr (.inl rfl)⟩
  case select v _ _ => exact .inl ⟨v, .inr (.inr rfl)⟩
  case receive id l d _ _ =>
    obtain ⟨m, hm⟩ := receive_idt_change hne
    exact .inr ⟨m, id, l, d, rfl, hm⟩
  case tx => rw [transmit_eq] at hne; exact absurd ⟨rfl, rfl⟩ hne
  all_goals exact absurd ⟨rfl, rfl⟩ hne

theorem Taken.idm_change (h : Taken i s t) (hne : ¬ (t.idm1 = s.idm1 ∧ t.idm2 = s.idm2)) :
    ∃ v, i = .wrIdm1 v ∨ i = .wrIdm2 v ∨ i = .wrPage v := by
  cases h
  case idm1 v => exact ⟨v, .inl rfl⟩
  case idm2 v => exact ⟨v, .inr (.inl rfl)⟩
  case select v _ _ => exact ⟨v, .inr (.inr rfl)⟩
  case receive => rw [receive_eq] at hne; exact absurd ⟨rfl, rfl⟩ hne
  case tx => rw [transmit_eq] at hne; exact absurd ⟨rfl, rfl⟩ hne
  all_goals exact absurd ⟨rfl, rfl⟩ hne

/-- Settles O55: of all effects, those named are the only ones that write these registers. -/
theorem identifierRegisterWriters : Obligations.IdentifierRegisterWriters := by
  intro i s t h
  obtain ⟨-, htaken⟩ := exec_taken h
  refine ⟨fun hne => ?_, fun hne => htaken.idm_change (not_and_or.mpr hne)⟩
  obtain hw | ⟨m, id, l, d, hi, hm⟩ := htaken.idt_change (not_and_or.mpr hne)
  · exact .inl hw
  · exact .inr ⟨id, l, d, m, hi, hm⟩

/-- A TXPOP changes the flag only by clearing it, under on_drain, at an empty queue (41 R151). -/
theorem txbsyAfterPop_change {c : TxbsyClear} {q : List TxEntry} {b : Bool}
    (hne : txbsyAfterPop c q b ≠ b) : txbsyAfterPop c q b = false ∧ c = .onDrain ∧ q = [] := by
  cases c with
  | never => exact absurd rfl hne
  | onDrain =>
    cases q with
    | nil => exact ⟨rfl, rfl, rfl⟩
    | cons e q => exact absurd rfl hne

theorem Taken.txbsy_change (h : Taken i s t) (hne : t.txbsy ≠ s.txbsy) :
    (t.txbsy = true ∧ ∃ x l, i = .wrCdmobTx x l) ∨
      (t.txbsy = false ∧ s.cfg.txbsyClear = .onDrain ∧ t.txq = [] ∧
        ∃ res m, i = .hostTxpop res m ∧ res ≠ .error) := by
  cases h
  case tx x l _ _ => exact .inl ⟨by rw [transmit_eq], x, l, rfl⟩
  case popOk m e q _ _ =>
    obtain ⟨hoff, hdrain, hq⟩ := txbsyAfterPop_change hne
    exact .inr ⟨hoff, hdrain, hq, .ok, m, rfl, nofun⟩
  case popShort m e q _ _ =>
    obtain ⟨hoff, hdrain, hq⟩ := txbsyAfterPop_change hne
    exact .inr ⟨hoff, hdrain, hq, .short, m, rfl, nofun⟩
  case receive => rw [receive_eq] at hne; exact absurd rfl hne
  all_goals exact absurd rfl hne

/-- Settles O56: a change of the flag is a transmit write that sets it or a TXPOP that clears it. -/
theorem busyFlagPolicy : Obligations.BusyFlagPolicy := by
  intro i s t h
  obtain ⟨-, htaken⟩ := exec_taken h
  constructor
  · intro hs ht
    obtain ⟨-, hw⟩ | ⟨hoff, -⟩ := htaken.txbsy_change (by simp [hs, ht])
    · exact hw
    · exact absurd (ht.symm.trans hoff) nofun
  · intro hs ht
    obtain ⟨hon, -⟩ | ⟨-, hw⟩ := htaken.txbsy_change (by simp [hs, ht])
    · exact absurd (hon.symm.trans ht) nofun
    · exact hw

end Sys2Proof.Machine
end

section
/-! SUPPORT. The mode codes with the configuration write each selects (10 R24, 30 R75), and the
power-on state (10 R43). -/

namespace Sys2Proof.Machine

/-- A word whose upper 24 bits are 0x010000 is a configuration write (30 R81). -/
theorem decode_configByte (r : Bool) (v : Byte) (d : Payload) :
    decode r (0x010000#24 ++ v) d = .ok (decodeConfig v) := by
  have hw : (0x010000#24 ++ v : Word) = writeWord 1 v := rfl
  rw [hw, decode_writeWord]
  rfl

/-- Settles O8: the codes by evaluation, the writes by the MODE field of the written byte. -/
theorem modeCodesAndTheirWrites : Obligations.ModeCodesAndTheirWrites := by
  refine ⟨⟨rfl, rfl, rfl, rfl⟩, Mode.code_ofCode, fun x l d r => ?_⟩
  have hconfig (c : BitVec 2) : decode r (0x010000#24 ++ (c ++ x ++ l)) d =
      .ok (decodeConfig (c ++ x ++ l)) := decode_configByte r _ d
  simp only [hconfig, decodeConfig_append]
  exact ⟨rfl, rfl, rfl, rfl⟩

@[simp] theorem powerOn_mailbox (p : Params) (startup : Option InitStep) (m : MobId) :
    (State.powerOn p startup).mailbox m = Mailbox.powerOn := by
  simp [State.mailbox, State.powerOn]

/-- Every data byte is zero at power-on, in the reading of log 4. -/
@[simp] theorem Mailbox.powerOn_data (i : Fin 8) : Mailbox.powerOn.data[i] = 0 := by
  simp [Mailbox.powerOn, Payload.zero]

/-- `ainc_en` holds at power-on, whatever the polarity (10 R34, R43). -/
theorem powerOn_aincEnabled (p : Params) (startup : Option InitStep) :
    AincEnabled (State.powerOn p startup) := by
  cases h : p.aincActiveLow <;> simp [AincEnabled, State.powerOn, h]

/-- Settles O16: field by field of `State.powerOn`. -/
theorem powerOnValues : Obligations.PowerOnValues := by
  refine ⟨fun p startup => ⟨fun m => ?_, rfl, rfl, powerOn_aincEnabled p startup, rfl, rfl, rfl, rfl,
    rfl, rfl, rfl, rfl, rfl, rfl⟩, Params.default, rfl⟩
  rw [powerOn_mailbox]
  exact ⟨rfl, rfl, rfl, rfl, rfl, Mailbox.powerOn_data⟩

theorem powerOn_mobnbIsCur (p : Params) (startup : Option InitStep) :
    MobnbIsCur (State.powerOn p startup) := by
  rw [mobnbIsCur_iff]
  simp only [State.powerOn]
  cases p.aincActiveLow <;> rfl

theorem powerOn_lengthsLegal (p : Params) (startup : Option InitStep) :
    LengthsLegal (State.powerOn p startup) := by
  refine ⟨Nat.zero_le 8, fun m => ?_⟩
  rw [powerOn_mailbox]
  exact Nat.zero_le 8

theorem powerOn_modeAgrees (p : Params) (startup : Option InitStep) :
    ModeAgrees (State.powerOn p startup) := by
  rw [ModeAgrees, powerOn_mailbox]
  simp [State.powerOn, Mailbox.powerOn, Mode.code]

theorem powerOn_queueLegal (p : Params) (startup : Option InitStep) :
    QueueLegal (State.powerOn p startup) :=
  ⟨Nat.zero_le _, nofun⟩

/-- Settles O17: each invariant holds of the zero state of log 4. -/
theorem powerOnMeetsTheInvariants : Obligations.PowerOnMeetsTheInvariants := fun p startup =>
  ⟨⟨powerOn_mobnbIsCur p startup, powerOn_lengthsLegal p startup⟩, powerOn_modeAgrees p startup,
    powerOn_queueLegal p startup, fun _ => rfl⟩

end Sys2Proof.Machine
end

section
/-! SUPPORT. The queued entries of one mailbox (41 R149, R153): what appending an entry and taking the
oldest one do to them. -/

namespace Sys2Proof.Machine

variable {s t : State} {m : MobId}

theorem queueOf_congr (h : t.txq = s.txq) : t.queueOf m = s.queueOf m := by
  rw [State.queueOf, State.queueOf, h]

/-- An entry appended to the queue is appended to the entries of its own mailbox only. -/
theorem queueOf_append {e : TxEntry} (h : t.txq = s.txq ++ [e]) :
    t.queueOf m = if e.m = m then s.queueOf m ++ [e] else s.queueOf m := by
  rw [State.queueOf, State.queueOf, h, List.filter_append]
  split
  · next he => simp [he]
  · next he => simp [he]

/-- The entry taken is the first of its mailbox; the entries of every other mailbox are kept. -/
theorem queueOf_takeOldest {k : Nat} {e : TxEntry} (h : takeOldest k s.txq = some (e, t.txq)) :
    e.m.val = k ∧ s.queueOf m = if e.m = m then e :: t.queueOf m else t.queueOf m := by
  obtain ⟨older, younger, hs, ht, rfl, hne⟩ := takeOldest_eq_some.mp h
  refine ⟨rfl, ?_⟩
  rw [State.queueOf, State.queueOf, hs, ht, List.filter_append, List.filter_append]
  split
  · next he =>
    have hnone : older.filter (fun x => x.m == m) = [] := by
      refine List.filter_eq_nil_iff.mpr fun x hx hxm => hne x hx ?_
      rw [he, eq_of_beq hxm]
    simp [hnone, he]
  · next he => simp [he]

/-- A TXPOP that took e leaves the entries of m, or has taken their first and returns it. -/
theorem popFrame_queueOf {k : Nat} {e : TxEntry} {q : List TxEntry} (ev : Event)
    (h : takeOldest k s.txq = some (e, q)) :
    (s.popFrame ev e q).queueOf m = s.queueOf m ∨
      k = m.val ∧ s.queueOf m = e :: (s.popFrame ev e q).queueOf m := by
  obtain ⟨hk, hq⟩ := queueOf_takeOldest (t := s.popFrame ev e q) (m := m) h
  split at hq
  · next he => exact .inr ⟨by rw [← hk, he], hq⟩
  · exact .inl hq.symm

/-- A transmit write queues its frame for the current mailbox, or, without a bridge, nothing. -/
theorem transmit_queueOf (s : State) (v : Byte) (m : MobId) :
    (s.transmit v).queueOf m = s.queueOf m ∨
      m = s.cur ∧ (s.transmit v).queueOf m = s.queueOf m ++ [⟨m, sentFrame s v⟩] := by
  cases hb : s.cfg.bridgePresent with
  | false => exact .inl (queueOf_congr (by rw [transmit_eq, hb]; rfl))
  | true =>
    have hq := queueOf_append (s := s) (t := s.transmit v) (m := m) (e := ⟨s.cur, sentFrame s v⟩)
      (by rw [transmit_eq, hb]; rfl)
    split at hq
    · next hm => exact .inr ⟨hm.symm, hm ▸ hq⟩
    · exact .inl hq

/-- Only a transmit write and a TXPOP write the queue. -/
theorem Taken.queueOf_change {i : Instr} (h : Taken i s t) (m : MobId) :
    t.queueOf m = s.queueOf m ∨
      (∃ x l f, i = .wrCdmobTx x l ∧ m = s.cur ∧ t.queueOf m = s.queueOf m ++ [⟨m, f⟩]) ∨
      ∃ res k e, i = .hostTxpop res k ∧ k.toNat = m.val ∧ s.queueOf m = e :: t.queueOf m ∧
        t.takenFrame = some e.frame := by
  cases h
  case tx x l _ _ =>
    obtain hq | ⟨hm, hq⟩ := transmit_queueOf s (cdmobByte Mode.tx.code x l) m
    · exact .inl hq
    · exact .inr (.inl ⟨x, l, _, rfl, hm, hq⟩)
  case popOk k e q _ he =>
    obtain hq | ⟨hk, hq⟩ := popFrame_queueOf (.txWritten e.m e.frame) he
    · exact .inl hq
    · exact .inr (.inr ⟨.ok, k, e, rfl, hk, hq, rfl⟩)
  case popShort k e q _ he =>
    obtain hq | ⟨hk, hq⟩ := popFrame_queueOf (.txShortWrite e.m e.frame) he
    · exact .inl hq
    · exact .inr (.inr ⟨.short, k, e, rfl, hk, hq, rfl⟩)
  case receive => exact .inl (queueOf_congr (by rw [receive_eq]))
  all_goals exact .inl rfl

/-- Settles O37: by what a transmit write and a TXPOP, the writers of the queue, do to it. -/
theorem framesOfOneMailboxStayInOrder : Obligations.FramesOfOneMailboxStayInOrder :=
  fun _ _ _ m h => (exec_taken h).2.queueOf_change m

end Sys2Proof.Machine
end

section
/-! SUPPORT. A step as the turn of its agent (20 R60, R61; 60 R194, R195): which requests the agent may
present, and what the turn does when the transaction is enabled, when it is not, and when the block
does not see the access. -/

namespace Sys2Proof.Machine

variable {s : State} {a : Agent} {ts : List Agent} {q : Request} {rest : List Request} {i : Instr}

/-! ### What an agent may present -/

/-- A word that decodes presents its instruction. -/
theorem present_word {p : Params} {t : Word} {d : Payload}
    (h : decode p.resetTrigger.isSome t d = .ok i) :
    (Request.word t d).present p = .transaction i := by
  simp only [Request.present, presentWord, h]

/-- A word is presented by the agent that issues its operation. -/
theorem mayPresent_word {p : Params} {t : Word} {d : Payload}
    (h : decode p.resetTrigger.isSome t d = .ok i) :
    mayPresent p (agentOf i) (.word t d) = true := by
  simp only [mayPresent, presentWord, h, beq_self_eq_true]

/-- A byte access is presented by the program. -/
theorem mayPresent_byteAccess (p : Params)
    (h : ∃ addr v, q = .busWrite addr v ∨ q = .busRead addr) : mayPresent p .prog q = true := by
  obtain ⟨addr, v, rfl | rfl⟩ := h <;> rfl

theorem Inbox.put_prog (b : Inbox) (l : List Request) : b.put .prog l = { b with prog := l } := rfl

/-! ### The turn of an agent with a pending request -/

section
variable (hf : s.fault = none) (hturn : s.turns = a :: ts) (hreq : s.inbox.of a = q :: rest)
include hf hturn hreq

theorem step_eq_serve : step s = serve a q s := by
  simp only [step, nextTurn, whenLive_of_none hf, hturn, hreq]

/-- An enabled transaction: the turn is over, the request is taken, the instruction runs. -/
theorem step_of_enabled (hmay : mayPresent s.cfg a q = true)
    (hp : q.present s.cfg = .transaction i) (hw : waits i s = false) :
    step s = exec i { s with turns := ts, inbox := s.inbox.put a rest } := by
  rw [step_eq_serve hf hturn hreq]
  simp [serve, hmay, hp, hw, State.takeRequest, hturn, hreq]

/-- A transaction that is not enabled: the turn is over, the request stays. -/
theorem step_of_waits (hmay : mayPresent s.cfg a q = true)
    (hp : q.present s.cfg = .transaction i) (hw : waits i s = true) :
    step s = .next { s with turns := ts } := by
  rw [step_eq_serve hf hturn hreq]
  simp [serve, hmay, hp, hw, State.passTurn, hturn]

/-- An access the block does not see: the turn is over and the request is taken (20 R52). -/
theorem step_of_unseen (hmay : mayPresent s.cfg a q = true) (hp : q.present s.cfg = .unseen) :
    step s = .next { s with turns := ts, inbox := s.inbox.put a rest } := by
  rw [step_eq_serve hf hturn hreq]
  simp [serve, hmay, hp, State.takeRequest, hturn, hreq]

end

/-- Settles O9: a word from its agent and a byte access from the program are both presented. -/
theorem stepRunsTheDecodedInstruction : Obligations.StepRunsTheDecodedInstruction := by
  constructor
  · rintro s _ ts t d rest i hf hturn hreq hdec rfl hw
    exact step_of_enabled hf hturn hreq (mayPresent_word hdec) (present_word hdec) hw
  · intro s ts q rest i hf hturn hreq hbus hp hw
    rw [← Inbox.put_prog]
    exact step_of_enabled hf hturn hreq (mayPresent_byteAccess _ hbus) hp hw

/-! ### Which transactions wait (41 R148, R149; 60 R195) -/

/-- A transmit write holds exactly at a full queue of a present bridge. -/
theorem txHolds_iff :
    s.txHolds = true ↔ s.cfg.bridgePresent = true ∧ s.cfg.txqDepth ≤ s.txq.length := by
  simp [State.txHolds]

theorem waits_iff : waits i s = true ↔
    s.cfg.bridgePresent = true ∧
      ((∃ x l, i = .wrCdmobTx x l ∧ l.toNat ≤ 8 ∧ s.cfg.txqDepth ≤ s.txq.length) ∨
        ∃ res m, i = .hostTxpop res m ∧ ∀ e ∈ s.txq, e.m.val ≠ m.toNat) := by
  cases i with
  | wrCdmobTx x l => simp [waits, txHolds_iff, and_left_comm]
  | hostTxpop res m => simp [waits, takeOldest_eq_none]
  | _ => simp [waits]

/-- Settles O10: the turn of a waiting transaction, its exec, and the cases of `waits`. -/
theorem disabledTransactionsStayPending : Obligations.DisabledTransactionsStayPending := by
  refine ⟨?_, ?_, fun _ _ => waits_iff⟩
  · rintro s _ ts t d rest i hf hturn hreq hdec rfl hw
    exact ⟨step_of_waits hf hturn hreq (mayPresent_word hdec) (present_word hdec) hw,
      exec_of_waits hf hw⟩
  · intro s ts q rest i hf hturn hreq hbus hp hw
    exact ⟨step_of_waits hf hturn hreq (mayPresent_byteAccess _ hbus) hp hw, exec_of_waits hf hw⟩

end Sys2Proof.Machine
end

section
/-! SUPPORT. The address map (20 R51, R52; 30 R81): the SEL number of each parameter address, and what
a byte access to it presents. -/

namespace Sys2Proof.Machine

variable {p : Params} {addr : Nat} {sel : BitVec 4} {v : Byte} {i : Instr}

/-! ### The SEL number of an address -/

/-- Only the addresses of the parameters have a SEL number (20 R52). -/
theorem selOfAddr_eq_none (hreg : addr ∉ p.regs.list) (htrig : p.resetTrigger ≠ some addr) :
    selOfAddr p addr = none := by
  simp only [RegMap.list, List.mem_cons, List.not_mem_nil, or_false, not_or] at hreg
  simp [selOfAddr, hreg, htrig]

/-- The addresses 00 R10 allows: no two registers share one, and the reset trigger has its own. -/
theorem wf_addresses (h : p.wf = true) :
    p.regs.list.Nodup ∧ ∀ a, p.resetTrigger = some a → a ∉ p.regs.list := by
  simp only [Params.wf, Bool.and_eq_true, decide_eq_true_eq] at h
  obtain ⟨⟨hnodup, htrig⟩, -⟩ := h
  refine ⟨hnodup, fun a ha => ?_⟩
  simpa [ha] using htrig

/-- Distinct registers have the SEL numbers of 30 R81. -/
theorem selOfAddr_registers (h : p.regs.list.Nodup) :
    selOfAddr p p.regs.page = some 0 ∧ selOfAddr p p.regs.cdmob = some 1 ∧
      selOfAddr p p.regs.msg = some 2 ∧ selOfAddr p p.regs.idt1 = some 3 ∧
      selOfAddr p p.regs.idt2 = some 4 ∧ selOfAddr p p.regs.idm1 = some 5 ∧
      selOfAddr p p.regs.idm2 = some 6 := by
  simp only [RegMap.list, List.nodup_cons, List.mem_cons, List.not_mem_nil, or_false, not_or] at h
  simp only [selOfAddr]
  grind

/-- The reset-trigger address is number 7 (30 R81, 70 R211). -/
theorem selOfAddr_resetTrigger (htrig : p.resetTrigger = some addr) (hreg : addr ∉ p.regs.list) :
    selOfAddr p addr = some 7 := by
  simp only [RegMap.list, List.mem_cons, List.not_mem_nil, or_false, not_or] at hreg
  simp [selOfAddr, hreg, htrig]

/-! ### What a byte access presents -/

/-- A write to a parameter's address presents the write word of its number. -/
theorem present_busWrite (h : selOfAddr p addr = some sel) :
    (Request.busWrite addr v).present p = presentWord p (writeWord sel v) Payload.zero := by
  simp only [Request.present, presentWrite, h]

/-- The write word of CDMOB, SEL 1, as its upper 24 bits and the written byte (30 R81). -/
theorem writeWord_cdmob (v : Byte) : (0x010000#24 ++ v : Word) = writeWord 1 v := rfl

theorem present_busWrite_transaction (h : selOfAddr p addr = some sel)
    (hdec : decodeWrite p.resetTrigger.isSome sel.toNat v = .ok i) :
    (Request.busWrite addr v).present p = .transaction i := by
  rw [present_busWrite h, presentWord, decode_writeWord, hdec]

theorem present_busRead_transaction (h : selOfAddr p addr = some sel) (hsel : sel ≠ 7)
    (hdec : decodeRead sel.toNat = .ok i) :
    (Request.busRead addr).present p = .transaction i := by
  simp only [Request.present, presentRead, h, if_neg hsel, presentWord, decode_readWord, hdec]

/-- The block sees no read of the reset-trigger address (70 R211). -/
theorem present_busRead_resetTrigger (h : selOfAddr p addr = some 7) :
    (Request.busRead addr).present p = .unseen := by
  simp only [Request.present, presentRead, h, if_true]

/-- The block sees no access to an address without a number (20 R52). -/
theorem present_unseen (h : selOfAddr p addr = none) :
    (Request.busWrite addr v).present p = .unseen ∧ (Request.busRead addr).present p = .unseen := by
  simp only [Request.present, presentWrite, presentRead, h, and_self]

/-- Settles O14: each address has its own SEL number, and the number's word decodes to its register's
operation. -/
theorem busAccessesNameTheirRegister : Obligations.BusAccessesNameTheirRegister := by
  intro p v hwf
  obtain ⟨hnodup, htrig⟩ := wf_addresses hwf
  obtain ⟨hpage, hcdmob, hmsg, hidt1, hidt2, hidm1, hidm2⟩ := selOfAddr_registers hnodup
  refine ⟨⟨?_, ?_, ?_, ?_, ?_, ?_, ?_⟩, ⟨?_, ?_, ?_, ?_, ?_, ?_, ?_⟩, fun a ha => ?_⟩
  · exact present_busWrite_transaction hpage rfl
  · rw [writeWord_cdmob]
    exact present_busWrite hcdmob
  · exact present_busWrite_transaction hmsg rfl
  · exact present_busWrite_transaction hidt1 rfl
  · exact present_busWrite_transaction hidt2 rfl
  · exact present_busWrite_transaction hidm1 rfl
  · exact present_busWrite_transaction hidm2 rfl
  · exact present_busRead_transaction hpage (by decide) rfl
  · exact present_busRead_transaction hcdmob (by decide) rfl
  · exact present_busRead_transaction hmsg (by decide) rfl
  · exact present_busRead_transaction hidt1 (by decide) rfl
  · exact present_busRead_transaction hidt2 (by decide) rfl
  · exact present_busRead_transaction hidm1 (by decide) rfl
  · exact present_busRead_transaction hidm2 (by decide) rfl
  · have hsel : selOfAddr p a = some 7 := selOfAddr_resetTrigger ha (htrig a ha)
    exact ⟨present_busWrite_transaction hsel (by rw [ha]; rfl), present_busRead_resetTrigger hsel⟩

/-- Settles O15: an address without a SEL number presents nothing the block sees. -/
theorem otherAddressesAreNotSeen : Obligations.OtherAddressesAreNotSeen := by
  intro s ts addr v rest hf hturn hreg htrig hreq
  obtain ⟨hwrite, hread⟩ := present_unseen (v := v) (selOfAddr_eq_none hreg htrig)
  rw [← Inbox.put_prog]
  obtain hreq | hreq := hreq
  · exact step_of_unseen hf hturn hreq rfl hwrite
  · exact step_of_unseen hf hturn hreq rfl hread

end Sys2Proof.Machine
end

section
/-! SUPPORT. The decoder and the encoder are inverse to each other (30 R80 to R85, R90): a word decodes
to an instruction exactly when it is that instruction's encoding. -/

namespace Sys2Proof.Machine

variable {r : Bool} {t : Word} {d : Payload} {i : Instr}

/-- The word t with the side operand d is the encoding of the well-formed instruction i, whose row is
there (30 R90). Only a RECEIVE carries a side operand (30 R80). -/
structure IsEncoding (r : Bool) (t : Word) (d : Payload) (i : Instr) : Prop where
  word : encodeWord i = t
  side : ∀ id l d', i = .hostReceive id l d' → d' = d
  wf   : i.wf = true
  row  : i.rowNumber = 10 → r = true

/-! ### What the decoder does with each format of word -/

theorem decode_configWord (r : Bool) (c x : BitVec 2) (l : DataLength) (d : Payload) :
    decode r (configWord c x l) d = .ok (decodeConfig (c ++ x ++ l)) :=
  decode_writeWord r 1 _ d

/-- A word whose upper byte is 0x20 + SEL is a host request of that SEL (30 R82). -/
theorem decode_hostWord {sel : Nat} (hk : t.toNat / 2 ^ 24 = 32 + sel) (hsel : sel < 16) :
    decode r t d = decodeHost t d ∧ (wordSel t).toNat = sel := by
  have hkind : (wordKind t).toNat = 2 := by rw [wordKind_toNat]; omega
  refine ⟨?_, by rw [wordSel_toNat]; omega⟩
  simp only [decode, hkind]

theorem decode_sendWord (r : Bool) (m : Byte) (d : Payload) :
    decode r (encodeWord (.hostSend m)) d = .ok (.hostSend m) := by
  have hw := sendWord_toNat m
  obtain ⟨hdec, hsel⟩ := decode_hostWord (r := r) (d := d) (t := encodeWord (.hostSend m))
    (sel := 0) (by omega) (by decide)
  have hzero : wordHigh (encodeWord (.hostSend m)) = 0 := by rw [wordHigh_eq_zero]; omega
  have hbyte : wordByte (encodeWord (.hostSend m)) = m := by
    apply BitVec.eq_of_toNat_eq; rw [wordByte_toNat]; omega
  simp [hdec, decodeHost, hsel, hzero, hbyte]

theorem wordLength_receiveWord (id : Ident) (l : DataLength) (d : Payload) :
    wordLength (encodeWord (.hostReceive id l d)) = l := by
  apply BitVec.eq_of_toNat_eq
  rw [wordLength_toNat, receiveWord_toNat]
  omega

/-- A RECEIVE word gives a RECEIVE of the side operand presented with it. -/
theorem decode_receiveWord (r : Bool) (id : Ident) {l : DataLength} (d' d : Payload)
    (hl : l.toNat ≤ 8) :
    decode r (encodeWord (.hostReceive id l d')) d = .ok (.hostReceive id l d) := by
  have hw := receiveWord_toNat id l d'
  obtain ⟨hdec, hsel⟩ := decode_hostWord (r := r) (d := d)
    (t := encodeWord (.hostReceive id l d')) (sel := 1) (by omega) (by decide)
  have hzero : (encodeWord (.hostReceive id l d')).extractLsb' 15 9 = 0 := by
    rw [extract_eq_zero]; omega
  have hid : wordIdent (encodeWord (.hostReceive id l d')) = id := by
    apply BitVec.eq_of_toNat_eq; rw [wordIdent_toNat]; omega
  simp [hdec, decodeHost, hsel, hzero, wordLength_receiveWord, hid, hl]

theorem wordRes_popWord (res : WriteResult) (m : Byte) :
    wordRes (encodeWord (.hostTxpop res m)) = encodeResult res := by
  apply BitVec.eq_of_toNat_eq
  rw [wordRes_toNat, popWord_toNat]
  omega

theorem decodeResult_encodeResult (res : WriteResult) :
    decodeResult (encodeResult res) = some res := by
  cases res <;> rfl

theorem decode_popWord (r : Bool) (res : WriteResult) (m : Byte) (d : Payload) :
    decode r (encodeWord (.hostTxpop res m)) d = .ok (.hostTxpop res m) := by
  have hw := popWord_toNat res m
  obtain ⟨hdec, hsel⟩ := decode_hostWord (r := r) (d := d)
    (t := encodeWord (.hostTxpop res m)) (sel := 2) (by omega) (by decide)
  have hzero : (encodeWord (.hostTxpop res m)).extractLsb' 10 14 = 0 := by
    rw [extract_eq_zero]; omega
  have hbyte : wordByte (encodeWord (.hostTxpop res m)) = m := by
    apply BitVec.eq_of_toNat_eq; rw [wordByte_toNat]; omega
  simp [hdec, decodeHost, hsel, hzero, wordRes_popWord, hbyte, decodeResult_encodeResult]

/-! ### An encoding decodes to its instruction -/

theorem IsEncoding.decode_eq (h : IsEncoding r t d i) : decode r t d = .ok i := by
  obtain ⟨rfl, hside, hwf, hrow⟩ := h
  cases i with
  | wrPage v => exact decode_writeWord r 0 v d
  | wrCdmobDis x l => exact (decode_configWord r 0 x l d).trans (by rw [decodeConfig_append]; rfl)
  | wrCdmobTx x l => exact (decode_configWord r 1 x l d).trans (by rw [decodeConfig_append]; rfl)
  | wrCdmobRx x l => exact (decode_configWord r 2 x l d).trans (by rw [decodeConfig_append]; rfl)
  | wrCdmobRxb x l => exact (decode_configWord r 3 x l d).trans (by rw [decodeConfig_append]; rfl)
  | wrMsg v => exact decode_writeWord r 2 v d
  | wrIdt1 v => exact decode_writeWord r 3 v d
  | wrIdt2 v => exact decode_writeWord r 4 v d
  | wrIdm1 v => exact decode_writeWord r 5 v d
  | wrIdm2 v => exact decode_writeWord r 6 v d
  | wrResetReg v =>
    obtain rfl := hrow rfl
    exact decode_writeWord true 7 v d
  | rdPage => exact decode_readWord r 0 d
  | rdCdmob => exact decode_readWord r 1 d
  | rdMsg => exact decode_readWord r 2 d
  | rdIdt1 => exact decode_readWord r 3 d
  | rdIdt2 => exact decode_readWord r 4 d
  | rdIdm1 => exact decode_readWord r 5 d
  | rdIdm2 => exact decode_readWord r 6 d
  | hostSend m => exact decode_sendWord r m d
  | hostReceive id l d' =>
    obtain rfl := hside id l d' rfl
    exact decode_receiveWord r id d' d' (of_decide_eq_true hwf)
  | hostTxpop res m => exact decode_popWord r res m d
  | reset => rfl

/-- Settles O1: the decoder gives back each format of word the encoder writes. -/
theorem decodeOfEncodeIsTheInstruction : Obligations.DecodeOfEncodeIsTheInstruction := by
  intro i hwf
  refine IsEncoding.decode_eq ⟨rfl, ?_, hwf, fun _ => rfl⟩
  rintro id l d rfl
  rfl

/-! ### The words the decoder accepts, by their format -/

/-- KIND 0 and T[23:8] = 0: a program write word. -/
theorem eq_writeWord (hk : (wordKind t).toNat = 0) (hz : wordHigh t = 0) :
    t = writeWord (wordSel t) (wordByte t) := by
  rw [wordKind_toNat] at hk
  rw [wordHigh_eq_zero] at hz
  apply word_ext
  rw [writeWord_toNat, wordSel_toNat, wordByte_toNat]
  omega

/-- KIND 1 and T[23:0] = 0: a program read word. -/
theorem eq_readWord (hk : (wordKind t).toNat = 1) (hz : t.extractLsb' 0 24 = 0) :
    t = readWord (wordSel t) := by
  rw [wordKind_toNat] at hk
  rw [extract_eq_zero] at hz
  apply word_ext
  rw [readWord_toNat, wordSel_toNat]
  omega

/-- KIND 2, SEL 0 and T[23:8] = 0: a SEND word. -/
theorem eq_sendWord (hk : (wordKind t).toNat = 2) (hs : (wordSel t).toNat = 0)
    (hz : wordHigh t = 0) : encodeWord (.hostSend (wordByte t)) = t := by
  rw [wordKind_toNat] at hk
  rw [wordSel_toNat] at hs
  rw [wordHigh_eq_zero] at hz
  apply word_ext
  rw [sendWord_toNat, wordByte_toNat]
  omega

/-- KIND 2, SEL 1 and T[23:15] = 0: a RECEIVE word. -/
theorem eq_receiveWord (hk : (wordKind t).toNat = 2) (hs : (wordSel t).toNat = 1)
    (hz : t.extractLsb' 15 9 = 0) :
    encodeWord (.hostReceive (wordIdent t) (wordLength t) d) = t := by
  rw [wordKind_toNat] at hk
  rw [wordSel_toNat] at hs
  rw [extract_eq_zero] at hz
  apply word_ext
  rw [receiveWord_toNat, wordIdent_toNat, wordLength_toNat]
  omega

theorem encodeResult_of_decodeResult {c : BitVec 2} {res : WriteResult}
    (h : decodeResult c = some res) : encodeResult res = c := by
  revert c res
  decide

/-- KIND 2, SEL 2, T[23:10] = 0 and an RES with a meaning: a TXPOP word. -/
theorem eq_popWord {res : WriteResult} (hk : (wordKind t).toNat = 2) (hs : (wordSel t).toNat = 2)
    (hz : t.extractLsb' 10 14 = 0) (hres : decodeResult (wordRes t) = some res) :
    encodeWord (.hostTxpop res (wordByte t)) = t := by
  rw [wordKind_toNat] at hk
  rw [wordSel_toNat] at hs
  rw [extract_eq_zero] at hz
  apply word_ext
  rw [popWord_toNat, encodeResult_of_decodeResult hres, wordRes_toNat, wordByte_toNat]
  omega

/-- KIND 3, SEL 0 and T[23:0] = 0: the RESET word. -/
theorem eq_resetWord (hk : (wordKind t).toNat = 3) (hs : (wordSel t).toNat = 0)
    (hz : t.extractLsb' 0 24 = 0) : encodeWord .reset = t := by
  rw [wordKind_toNat] at hk
  rw [wordSel_toNat] at hs
  rw [extract_eq_zero] at hz
  apply word_ext
  change 0x30000000 = t.toNat
  omega

/-! ### A word the decoder accepts is an encoding -/

/-- The configuration write of a byte encodes to the write word of that byte (30 R71). -/
theorem isEncoding_config (r : Bool) (v : Byte) (d : Payload) :
    IsEncoding r (writeWord 1 v) d (decodeConfig v) := by
  have hv : cdmobByte (cdmobMode v) (cdmobSpare v) (cdmobDlc v) = v := by
    apply BitVec.eq_of_toNat_eq
    rw [cdmobByte_toNat, cdmobMode_toNat, cdmobSpare_toNat, cdmobDlc_toNat]
    omega
  rw [← hv]
  generalize cdmobMode v = c, cdmobSpare v = x, cdmobDlc v = l
  rw [cdmobByte, decodeConfig_append]
  match c with
  | 0#2 | 1#2 | 2#2 | 3#2 => exact ⟨rfl, nofun, rfl, nofun⟩

theorem isEncoding_write {sel : BitVec 4} {v : Byte} (h : decodeWrite r sel.toNat v = .ok i) :
    IsEncoding r (writeWord sel v) d i := by
  match sel with
  | 0#4 | 2#4 | 3#4 | 4#4 | 5#4 | 6#4 => cases h; exact ⟨rfl, nofun, rfl, nofun⟩
  | 1#4 => cases h; exact isEncoding_config r v d
  | 7#4 =>
    cases r with
    | true => cases h; exact ⟨rfl, nofun, rfl, fun _ => rfl⟩
    | false => cases h
  | 8#4 | 9#4 | 10#4 | 11#4 | 12#4 | 13#4 | 14#4 | 15#4 => cases h

theorem isEncoding_read {sel : BitVec 4} (h : decodeRead sel.toNat = .ok i) :
    IsEncoding r (readWord sel) d i := by
  match sel with
  | 0#4 | 1#4 | 2#4 | 3#4 | 4#4 | 5#4 | 6#4 => cases h; exact ⟨rfl, nofun, rfl, nofun⟩
  | 7#4 | 8#4 | 9#4 | 10#4 | 11#4 | 12#4 | 13#4 | 14#4 | 15#4 => cases h

theorem isEncoding_host (hk : (wordKind t).toNat = 2) (h : decodeHost t d = .ok i) :
    IsEncoding r t d i := by
  unfold decodeHost at h
  split at h
  · next hs =>
    split at h
    · next hz => cases h; exact ⟨eq_sendWord hk hs hz, nofun, rfl, nofun⟩
    · cases h
  · next hs =>
    split at h
    · next hz =>
      split at h
      · next hl =>
        cases h
        refine ⟨eq_receiveWord hk hs hz, ?_, decide_eq_true hl, nofun⟩
        rintro _ _ _ ⟨⟩
        rfl
      · cases h
    · cases h
  · next hs =>
    split at h
    · next hz =>
      split at h
      · next hres => cases h; exact ⟨eq_popWord hk hs hz hres, nofun, rfl, nofun⟩
      · cases h
    · cases h
  · cases h

theorem isEncoding_reset (hk : (wordKind t).toNat = 3) (h : decodeReset t = .ok i) :
    IsEncoding r t d i := by
  unfold decodeReset at h
  split at h
  · next hs =>
    split at h
    · next hz => cases h; exact ⟨eq_resetWord hk hs hz, nofun, rfl, nofun⟩
    · cases h
  · cases h

theorem isEncoding_of_decode (h : decode r t d = .ok i) : IsEncoding r t d i := by
  unfold decode at h
  split at h
  · next hk =>
    split at h
    · next hz => rw [eq_writeWord hk hz]; exact isEncoding_write h
    · cases h
  · next hk =>
    split at h
    · next hz => rw [eq_readWord hk hz]; exact isEncoding_read h
    · cases h
  · next hk => exact isEncoding_host hk h
  · next hk => exact isEncoding_reset hk h
  · cases h

/-- The decoder, said once: a word decodes to exactly the instruction it encodes. -/
theorem decode_eq_ok_iff : decode r t d = .ok i ↔ IsEncoding r t d i :=
  ⟨isEncoding_of_decode, IsEncoding.decode_eq⟩

/-- Settles O2: an accepted word is the encoding of the instruction it gives. -/
theorem acceptedWordsAreEncodings : Obligations.AcceptedWordsAreEncodings := by
  intro r t d i h
  obtain ⟨hword, -, hwf, -⟩ := isEncoding_of_decode h
  exact ⟨hword, hwf⟩

/-- Only the WR.RESETREG row asks whether RESET_TRIGGER_ADDR is set (30 R90). -/
theorem IsEncoding.of_rowNumber_ne {r' : Bool} (hne : i.rowNumber ≠ 10) (h : IsEncoding r t d i) :
    IsEncoding r' t d i :=
  ⟨h.word, h.side, h.wf, fun hrow => absurd hrow hne⟩

/-- Settles O5: row 10 needs its address, and the encodings of the other rows are the same words with
and without it. -/
theorem resetRegisterRowNeedsItsAddress : Obligations.ResetRegisterRowNeedsItsAddress := by
  refine ⟨fun t d v h => ?_, fun t d i hne => ?_⟩
  · exact absurd ((isEncoding_of_decode h).row rfl) nofun
  · rw [decode_eq_ok_iff, decode_eq_ok_iff]
    exact ⟨.of_rowNumber_ne hne, .of_rowNumber_ne hne⟩

end Sys2Proof.Machine
end

section
/-! SUPPORT. The opcode map (30 R84, R90): its rows are disjoint, and the decoder accepts exactly what
they match, without the two reserved ranges of 30 R85. -/

namespace Sys2Proof.Machine

variable {r : Bool} {t : Word} {d : Payload} {i : Instr} {p q : Word × Word}

/-! ### The rows are disjoint -/

theorem rowMatches_iff : rowMatches t p = true ↔ t &&& p.2 = p.1 := beq_iff_eq

/-- Two rows that one word matches have the same value on the bits both masks fix. -/
theorem values_agree_of_rowMatches (hp : rowMatches t p = true) (hq : rowMatches t q = true) :
    p.1 &&& q.2 = q.1 &&& p.2 := by
  rw [← rowMatches_iff.mp hp, ← rowMatches_iff.mp hq, BitVec.and_assoc, BitVec.and_assoc,
    BitVec.and_comm p.2]

/-- Two rows of the map differ on a bit that both masks fix. -/
theorem row_eq_of_values_agree : ∀ j k : Fin opcodeRows.length,
    opcodeRows[j].1 &&& opcodeRows[k].2 = opcodeRows[k].1 &&& opcodeRows[j].2 → j = k := by
  decide

/-- Settles O3: rows matched by one word agree where both masks fix the bits, and no two rows do. -/
theorem wordMatchesAtMostOneRow : Obligations.WordMatchesAtMostOneRow := fun _ j k hj hk hmj hmk =>
  Fin.mk.inj (row_eq_of_values_agree ⟨j, hj⟩ ⟨k, hk⟩ (values_agree_of_rowMatches hmj hmk))

/-- The law by the rows' numbers as `[_]?` gives them. -/
theorem row_unique {j k : Nat} (hp : opcodeRows[j]? = some p) (hq : opcodeRows[k]? = some q)
    (hmp : rowMatches t p = true) (hmq : rowMatches t q = true) : j = k := by
  obtain ⟨hj, rfl⟩ := List.getElem?_eq_some_iff.mp hp
  obtain ⟨hk, rfl⟩ := List.getElem?_eq_some_iff.mp hq
  exact wordMatchesAtMostOneRow t j k hj hk hmp hmq

/-! ### An accepted word matches its row, outside the reserved ranges -/

theorem encodeWord_matches_row (i : Instr) :
    ∃ p, opcodeRows[i.rowNumber]? = some p ∧ rowMatches (encodeWord i) p = true := by
  cases i with
  | wrPage v => exact Laws.Row.wrPage v
  | wrCdmobDis x l => exact Laws.Row.wrCdmobDis x l
  | wrCdmobTx x l => exact Laws.Row.wrCdmobTx x l
  | wrCdmobRx x l => exact Laws.Row.wrCdmobRx x l
  | wrCdmobRxb x l => exact Laws.Row.wrCdmobRxb x l
  | wrMsg v => exact Laws.Row.wrMsg v
  | wrIdt1 v => exact Laws.Row.wrIdt1 v
  | wrIdt2 v => exact Laws.Row.wrIdt2 v
  | wrIdm1 v => exact Laws.Row.wrIdm1 v
  | wrIdm2 v => exact Laws.Row.wrIdm2 v
  | wrResetReg v => exact Laws.Row.wrResetReg v
  | rdPage => exact Laws.Row.rdPage
  | rdCdmob => exact Laws.Row.rdCdmob
  | rdMsg => exact Laws.Row.rdMsg
  | rdIdt1 => exact Laws.Row.rdIdt1
  | rdIdt2 => exact Laws.Row.rdIdt2
  | rdIdm1 => exact Laws.Row.rdIdm1
  | rdIdm2 => exact Laws.Row.rdIdm2
  | hostSend m => exact Laws.Row.hostSend m
  | hostReceive id l d => exact Laws.Row.hostReceive id l d
  | hostTxpop res m => exact Laws.Row.hostTxpop res m
  | reset => exact Laws.Row.reset

/-- Row 19 is HOST.RECEIVE, whose length is 0 to 8. -/
theorem IsEncoding.length_le (h : IsEncoding r t d i) (hn : i.rowNumber = 19) :
    (wordLength t).toNat ≤ 8 := by
  obtain ⟨rfl, -, hwf, -⟩ := h
  cases i <;> cases hn
  rw [wordLength_receiveWord]
  exact of_decide_eq_true hwf

theorem encodeResult_ne_three (res : WriteResult) : encodeResult res ≠ 3#2 := by
  cases res <;> decide

/-- Row 20 is HOST.TXPOP, whose RES is not 3. -/
theorem IsEncoding.result_ne (h : IsEncoding r t d i) (hn : i.rowNumber = 20) :
    wordRes t ≠ 3#2 := by
  obtain ⟨rfl, -, -, -⟩ := h
  cases i <;> cases hn
  rw [wordRes_popWord]
  exact encodeResult_ne_three _

/-! ### A word that matches a row is accepted, outside the reserved ranges -/

/-- On a field the row's mask fixes, a word that matches has the row's bits. -/
theorem field_of_rowMatches {k n : Nat} (hmask : p.2.extractLsb' k n = BitVec.allOnes n)
    (hm : rowMatches t p = true) : t.extractLsb' k n = p.1.extractLsb' k n := by
  rw [← rowMatches_iff.mp hm, BitVec.extractLsb'_and, hmask, BitVec.and_allOnes]

theorem rowMask_fixes_kind_sel : ∀ j : Fin opcodeRows.length,
    wordKind opcodeRows[j].2 = BitVec.allOnes 4 ∧ wordSel opcodeRows[j].2 = BitVec.allOnes 4 := by
  decide

/-- A word that matches a row has the row's KIND and SEL. -/
theorem kind_sel_of_rowMatches {n : Nat} (hp : opcodeRows[n]? = some p)
    (hm : rowMatches t p = true) : wordKind t = wordKind p.1 ∧ wordSel t = wordSel p.1 := by
  obtain ⟨hn, rfl⟩ := List.getElem?_eq_some_iff.mp hp
  obtain ⟨hkind, hsel⟩ := rowMask_fixes_kind_sel ⟨n, hn⟩
  exact ⟨field_of_rowMatches hkind hm, field_of_rowMatches hsel hm⟩

theorem decodeWrite_accepts {sel : BitVec 4} (v : Byte) (h : sel.toNat ≤ 7) :
    ∃ i, decodeWrite true sel.toNat v = .ok i := by
  match sel with
  | 0#4 | 1#4 | 2#4 | 3#4 | 4#4 | 5#4 | 6#4 | 7#4 => exact ⟨_, rfl⟩

theorem decodeRead_accepts {sel : BitVec 4} (h : sel.toNat ≤ 6) :
    ∃ i, decodeRead sel.toNat = .ok i := by
  match sel with
  | 0#4 | 1#4 | 2#4 | 3#4 | 4#4 | 5#4 | 6#4 => exact ⟨_, rfl⟩

theorem decodeResult_accepts {c : BitVec 2} (h : c ≠ 3#2) : ∃ res, decodeResult c = some res := by
  match c, h with
  | 0#2, _ | 1#2, _ | 2#2, _ => exact ⟨_, rfl⟩
  | 3#2, h => exact absurd rfl h

theorem decode_accepts_write (hk : (wordKind t).toNat = 0) (hz : wordHigh t = 0)
    (hs : (wordSel t).toNat ≤ 7) : ∃ i, decode true t d = .ok i := by
  rw [eq_writeWord hk hz, decode_writeWord]
  exact decodeWrite_accepts _ hs

theorem decode_accepts_read (hk : (wordKind t).toNat = 1) (hz : t.extractLsb' 0 24 = 0)
    (hs : (wordSel t).toNat ≤ 6) : ∃ i, decode r t d = .ok i := by
  rw [eq_readWord hk hz, decode_readWord]
  exact decodeRead_accepts hs

theorem decode_accepts_receive (hk : (wordKind t).toNat = 2) (hs : (wordSel t).toNat = 1)
    (hz : t.extractLsb' 15 9 = 0) (hl : (wordLength t).toNat ≤ 8) :
    ∃ i, decode r t d = .ok i := by
  rw [← eq_receiveWord (d := d) hk hs hz]
  exact ⟨_, decode_receiveWord r _ d d hl⟩

theorem decode_accepts_pop (hk : (wordKind t).toNat = 2) (hs : (wordSel t).toNat = 2)
    (hz : t.extractLsb' 10 14 = 0) (hres : wordRes t ≠ 3#2) : ∃ i, decode r t d = .ok i := by
  obtain ⟨res, hres⟩ := decodeResult_accepts hres
  rw [← eq_popWord hk hs hz hres]
  exact ⟨_, decode_popWord r res _ d⟩

/-- A word that matches a row has one of the formats the decoder takes: KIND and SEL are the row's,
and the bits required to be zero are zero. -/
theorem decode_accepts_of_rowMatches {n : Nat} (hp : opcodeRows[n]? = some p)
    (hm : rowMatches t p = true) (hlen : n = 19 → (wordLength t).toNat ≤ 8)
    (hres : n = 20 → wordRes t ≠ 3#2) : ∃ i, decode true t d = .ok i := by
  obtain ⟨hk, hs⟩ := kind_sel_of_rowMatches hp hm
  match n, hp with
  | 0, rfl | 1, rfl | 2, rfl | 3, rfl | 4, rfl | 5, rfl | 6, rfl | 7, rfl | 8, rfl | 9, rfl
  | 10, rfl =>
    exact decode_accepts_write (by rw [hk]; rfl) (field_of_rowMatches rfl hm) (by rw [hs]; decide)
  | 11, rfl | 12, rfl | 13, rfl | 14, rfl | 15, rfl | 16, rfl | 17, rfl =>
    exact decode_accepts_read (by rw [hk]; rfl) (field_of_rowMatches rfl hm) (by rw [hs]; decide)
  | 18, rfl =>
    rw [← eq_sendWord (by rw [hk]; rfl) (by rw [hs]; rfl) (field_of_rowMatches rfl hm)]
    exact ⟨_, decode_sendWord true _ d⟩
  | 19, rfl =>
    exact decode_accepts_receive (by rw [hk]; rfl) (by rw [hs]; rfl) (field_of_rowMatches rfl hm)
      (hlen rfl)
  | 20, rfl =>
    exact decode_accepts_pop (by rw [hk]; rfl) (by rw [hs]; rfl) (field_of_rowMatches rfl hm)
      (hres rfl)
  | 21, rfl =>
    rw [← eq_resetWord (by rw [hk]; rfl) (by rw [hs]; rfl) (field_of_rowMatches rfl hm)]
    exact ⟨.reset, rfl⟩

/-- Settles O4: an accepted word matches its row outside the ranges; a word that matches a row outside
them is accepted, and the row of the instruction it gives is the one row it matches. -/
theorem decoderAcceptsTheRowsButTheReservedRanges :
    Obligations.DecoderAcceptsTheRowsButTheReservedRanges := by
  intro t d n
  constructor
  · rintro ⟨i, hdec, rfl⟩
    have henc := isEncoding_of_decode hdec
    refine ⟨henc.word ▸ encodeWord_matches_row i, fun ⟨hn, hlt⟩ => ?_, fun ⟨hn, hres⟩ => ?_⟩
    · exact absurd (henc.length_le hn) (Nat.not_le.mpr hlt)
    · exact henc.result_ne hn hres
  · rintro ⟨⟨p, hp, hm⟩, hlen, hres⟩
    obtain ⟨i, hdec⟩ := decode_accepts_of_rowMatches (d := d) hp hm
      (fun hn => Nat.le_of_not_lt fun hlt => hlen ⟨hn, hlt⟩) (fun hn hr => hres ⟨hn, hr⟩)
    obtain ⟨q, hq, hmq⟩ := (isEncoding_of_decode hdec).word ▸ encodeWord_matches_row i
    exact ⟨i, hdec, row_unique hq hp hmq hm⟩

end Sys2Proof.Machine
end

section
/-! SUPPORT. Sample words (30 R90), the packing laws (30 R76), the turn of an agent with a refused word
(30 R84), and the mailbox select that faults (40 R101). -/

namespace Sys2Proof.Machine

/-- Settles O6: each word is decoded by evaluation. -/
theorem sampleWordsDecode : Obligations.SampleWordsDecode := by
  unfold Obligations.SampleWordsDecode
  decide

/-! ### Packing (00 R13, 30 R76) -/

@[simp] theorem recon_split (v : Ident) : recon (splitHi v) (splitLo v) = v := by
  apply BitVec.eq_of_toNat_eq
  rw [recon_toNat, splitHi_toNat, splitLo_toNat]
  omega

@[simp] theorem splitHi_recon (hi lo : Byte) : splitHi (recon hi lo) = hi := by
  apply BitVec.eq_of_toNat_eq
  rw [splitHi_toNat, recon_toNat]
  omega

/-- The low byte comes back as its bits 7:5 above five zeros. -/
theorem splitLo_recon (hi lo : Byte) : splitLo (recon hi lo) = lo.extractLsb' 5 3 ++ 0#5 := by
  apply BitVec.eq_of_toNat_eq
  rw [splitLo_toNat, recon_toNat, toNat_append_add, toNat_extract]
  simp

/-- Bits 7:5 of a byte above five zeros are the byte with bits 4:0 cleared. -/
theorem topBits_append_zero (b : Byte) : b.extractLsb' 5 3 ++ 0#5 = b &&& 0xE0 := by
  have hb : b.extractLsb' 5 3 ++ b.extractLsb' 0 5 = b :=
    (BitVec.extractLsb'_append_extractLsb'_eq_extractLsb' rfl).trans BitVec.extractLsb'_eq_self
  have hmask : (0xE0 : Byte) = BitVec.allOnes 3 ++ 0#5 := rfl
  calc b.extractLsb' 5 3 ++ 0#5
      = (b.extractLsb' 5 3 ++ b.extractLsb' 0 5) &&& (BitVec.allOnes 3 ++ 0#5) := by
        rw [BitVec.and_append, BitVec.and_allOnes, BitVec.and_zero]
    _ = b &&& 0xE0 := by rw [hb, hmask]

/-- Settles O7: each round trip by the numbers of the packed fields. -/
theorem packingRoundTrips : Obligations.PackingRoundTrips :=
  ⟨recon_split, fun hi lo =>
    ⟨splitHi_recon hi lo, (splitLo_recon hi lo).trans (topBits_append_zero lo)⟩⟩

/-! ### A refused word (30 R84, R85) -/

theorem serve_refusedWord {s : State} {a : Agent} {t : Word} {d : Payload} {e : DecodeError}
    (h : decode s.cfg.resetTrigger.isSome t d = .error e) :
    serve a (.word t d) s = .refused (.notATransaction e) := by
  have hp : presentWord s.cfg t d = .invalid e := by simp only [presentWord, h]
  simp only [serve, mayPresent, Request.present, hp, if_true]

/-- Settles O12: the turn of the agent presents the word, which is no transaction. -/
theorem noTransactionIsRefused : Obligations.NoTransactionIsRefused := by
  intro s a ts t d rest e hf hturn hreq hdec
  rw [step_eq_serve hf hturn hreq]
  exact serve_refusedWord hdec

/-! ### The select of no mailbox (40 R101, 30 R86) -/

theorem execWrPage_of_noMailbox {s : State} {v : Byte} (hf : s.fault = none)
    (h : 6 ≤ (pageMobnb v).toNat) :
    execWrPage v s = .next (s.faulted (.mobIndex ((pageMobnb v).setWidth 8))) := by
  rw [execWrPage, whenLive_of_none hf, mobOf_eq_none.mpr h]
  rfl

/-- Settles O19: a select of 6 or 7 names no mailbox, and the fault's index is the field N. -/
theorem selectOfNoMailboxFaults : Obligations.SelectOfNoMailboxFaults := by
  intro s v hf h
  have hindex : (pageMobnb v).setWidth 8 = 0#5 ++ v.extractLsb' 4 3 :=
    BitVec.setWidth_eq_append (by decide)
  rw [← hindex]
  exact execWrPage_of_noMailbox hf h

end Sys2Proof.Machine
end

section
/-! SUPPORT. The modes of the bank (40 R123): which effects keep the mode of every mailbox, the
agreement of CDMOB with the current mailbox's mode, and the writes that change a mode. -/

namespace Sys2Proof.Machine

variable {i : Instr} {s t : State}

/-- A data write keeps the mode of every mailbox. -/
@[simp] theorem storeData_mode (s : State) (v : Byte) (k : MobId) :
    ((s.storeData v).mailbox k).mode = (s.mailbox k).mode := by
  rw [storeData_mailbox]
  split
  · next h => rw [h]
  · rfl

/-- A RECEIVE keeps the mode of every mailbox. -/
@[simp] theorem receive_mode (s : State) (id : Ident) (l : DataLength) (d : Payload) (k : MobId) :
    ((s.receive id l d).mailbox k).mode = (s.mailbox k).mode := by
  cases hm : s.findMatch id with
  | some m =>
    rw [receive_mailbox_of_match hm, deliver_mailbox]
    split
    · next h => rw [h]
    · rfl
  | none =>
    rw [receive_of_noMatch hm]
    rfl

/-- A commit gives the current mailbox the mode its byte names. -/
theorem commit_mode_cur (s : State) (v : Byte) :
    ((s.commit v).mailbox s.cur).mode = Mode.ofCode (cdmobMode v) := by
  rw [commit_mailbox, if_pos rfl]

/-- Where CDMOB agrees with the current mailbox, a snapshot keeps the mode of every mailbox. -/
theorem snapshot_mode_of_agrees (hs : ModeAgrees s) (k : MobId) :
    ((s.snapshot s.cur).mailbox k).mode = (s.mailbox k).mode := by
  rw [snapshot_mailbox]
  split
  · next h =>
    have hcode : cdmobMode s.cdmob = (s.mailbox k).mode.code := h ▸ hs
    change Mode.ofCode (cdmobMode s.cdmob) = (s.mailbox k).mode
    rw [hcode, Mode.ofCode_code]
  · rfl

theorem commit_modeAgrees (s : State) (v : Byte) : ModeAgrees (s.commit v) := by
  change cdmobMode v = ((s.commit v).mailbox s.cur).mode.code
  rw [commit_mode_cur, Mode.code_ofCode]

theorem select_modeAgrees (s : State) (v : Byte) (n : MobId) : ModeAgrees (s.select v n) :=
  cdmobMode_cdmobByte ..

/-- CDMOB is written together with a mode by a commit, and from the new mailbox by a select; no other
effect writes CDMOB, `cur` or a mode. -/
theorem Taken.modeAgrees (h : Taken i s t) (hs : ModeAgrees s) : ModeAgrees t := by
  cases h
  case select v n _ => exact select_modeAgrees s v n
  case dis | rx | rxb => exact commit_modeAgrees s _
  case tx x l _ _ =>
    have hc := commit_modeAgrees s (cdmobByte Mode.tx.code x l)
    rw [transmit_eq]
    exact hc
  case msg v =>
    change cdmobMode s.cdmob = ((s.storeData v).mailbox s.cur).mode.code
    rw [storeData_mode]
    exact hs
  case receive id l d _ _ =>
    have hcdmob : (s.receive id l d).cdmob = s.cdmob := by rw [receive_eq]
    have hcur : (s.receive id l d).cur = s.cur := by rw [receive_eq]
    rw [ModeAgrees, hcdmob, hcur, receive_mode]
    exact hs
  all_goals exact hs

/-- Settles O46: every transaction keeps the agreement, so every step does. -/
theorem stepKeepsTheModeAgreement : Obligations.StepKeepsTheModeAgreement := by
  intro s t hs h
  exact step_keeps (P := ModeAgrees) (fun _ hu => hu) (fun _ _ hu => hu) (fun _ _ hu => hu)
    (fun _ _ _ hi => hi.modeAgrees) h hs

/-- A commit that changes a mode changes the current mailbox's, to the mode named. -/
theorem commit_mode_change {mode : Mode} {x : BitVec 2} {l : DataLength} {m : MobId}
    (hne : ((s.commit (cdmobByte mode.code x l)).mailbox m).mode ≠ (s.mailbox m).mode) :
    m = s.cur ∧ ((s.commit (cdmobByte mode.code x l)).mailbox m).mode = mode := by
  have hm : m = s.cur := by
    by_contra hc
    exact hne (by rw [commit_mailbox_of_ne hc])
  refine ⟨hm, ?_⟩
  rw [hm, commit_mode_cur, cdmobMode_cdmobByte, Mode.ofCode_code]

/-- Settles O52: a snapshot of an agreeing CDMOB changes no mode, and a commit the current one. -/
theorem modesChangeOnlyByCommit : Obligations.ModesChangeOnlyByCommit := by
  intro i s t m hs h hne
  obtain ⟨-, htaken⟩ := exec_taken h
  cases htaken
  case dis x l _ =>
    exact (commit_mode_change hne).imp_right fun hmode => ⟨x, l, .inl ⟨rfl, hmode⟩⟩
  case tx x l _ _ =>
    rw [transmit_mailbox] at hne ⊢
    exact (commit_mode_change hne).imp_right fun hmode => ⟨x, l, .inr (.inl ⟨rfl, hmode⟩)⟩
  case rx x l _ =>
    exact (commit_mode_change hne).imp_right fun hmode => ⟨x, l, .inr (.inr (.inl ⟨rfl, hmode⟩))⟩
  case rxb x l _ =>
    exact (commit_mode_change hne).imp_right fun hmode => ⟨x, l, .inr (.inr (.inr ⟨rfl, hmode⟩))⟩
  case select v n _ => exact absurd (snapshot_mode_of_agrees hs m) hne
  case msg v => exact absurd (storeData_mode s v m) hne
  case receive id l d _ _ => exact absurd (receive_mode s id l d m) hne
  all_goals exact absurd rfl hne

end Sys2Proof.Machine
end

section
/-! SUPPORT. A transaction keeps the fault register or is a raised fault (60 R185). -/

namespace Sys2Proof.Machine

variable {i : Instr} {s t : State}

/-- A transaction either does not touch `fault` or does nothing but raise one. -/
theorem Taken.fault_kept_or_raised (h : Taken i s t) :
    t.fault = s.fault ∨ ∃ r, t = s.faulted r := by
  cases h
  case selectFault | disFault | txFault | rxFault | rxbFault | sendFault | popFault =>
    exact .inr ⟨_, rfl⟩
  case tx => exact .inl (by rw [transmit_eq])
  case receive => exact .inl (by rw [receive_eq])
  all_goals exact .inl rfl

/-- Settles O58: a transaction is taken with no fault recorded, so one recorded after it was raised. -/
theorem faultsArePrecise : Obligations.FaultsArePrecise := by
  intro i s t r h hr
  obtain ⟨hf, htaken⟩ := exec_taken h
  obtain hkept | ⟨r', rfl⟩ := htaken.fault_kept_or_raised
  · exact absurd (hr.symm.trans (hkept.trans hf)) nofun
  · obtain rfl : r' = r := Option.some.inj hr
    rfl

end Sys2Proof.Machine
end

section
/-! SUPPORT. The KIND and SEL fields of the program's words (30 R81), and the operations whose whole
effect is one field: the identifier and mask writes and the reads (40 R111 to R121). -/

namespace Sys2Proof.Machine

variable {i : Instr}

/-- A program write has KIND 0 and the SEL of its register. -/
theorem hasKindSel_of_writeWord {sel : BitVec 4} {v : Byte} (h : encodeWord i = writeWord sel v) :
    HasKindSel i 0 sel.toNat := by
  have hw : (encodeWord i).toNat = sel.toNat * 2 ^ 24 + v.toNat := by rw [h, writeWord_toNat]
  constructor
  · change (wordKind (encodeWord i)).toNat = 0
    rw [wordKind_toNat]
    omega
  · change (wordSel (encodeWord i)).toNat = sel.toNat
    rw [wordSel_toNat]
    omega

/-- A program read has KIND 1 and the SEL of its register. -/
theorem hasKindSel_of_readWord {sel : BitVec 4} (h : encodeWord i = readWord sel) :
    HasKindSel i 1 sel.toNat := by
  have hw : (encodeWord i).toNat = 2 ^ 28 + sel.toNat * 2 ^ 24 := by rw [h, readWord_toNat]
  constructor
  · change (wordKind (encodeWord i)).toNat = 1
    rw [wordKind_toNat]
    omega
  · change (wordSel (encodeWord i)).toNat = sel.toNat
    rw [wordSel_toNat]
    omega

/-- Settles O29: each write is its one update of a live state. -/
theorem idAndMaskWritesStoreTheByte : Obligations.IdAndMaskWritesStoreTheByte := by
  intro s v hf
  exact ⟨⟨hasKindSel_of_writeWord (sel := 3) rfl, whenLive_of_none hf _⟩,
    ⟨hasKindSel_of_writeWord (sel := 4) rfl, whenLive_of_none hf _⟩,
    ⟨hasKindSel_of_writeWord (sel := 5) rfl, whenLive_of_none hf _⟩,
    ⟨hasKindSel_of_writeWord (sel := 6) rfl, whenLive_of_none hf _⟩⟩

/-- Settles O30: each read returns its register's byte to the program. -/
theorem readsReturnTheShadowByte : Obligations.ReadsReturnTheShadowByte := by
  intro s hf
  exact ⟨⟨hasKindSel_of_readWord (sel := 0) rfl, whenLive_of_none hf _⟩,
    ⟨hasKindSel_of_readWord (sel := 1) rfl, whenLive_of_none hf _⟩,
    ⟨hasKindSel_of_readWord (sel := 3) rfl, whenLive_of_none hf _⟩,
    ⟨hasKindSel_of_readWord (sel := 4) rfl, whenLive_of_none hf _⟩,
    ⟨hasKindSel_of_readWord (sel := 5) rfl, whenLive_of_none hf _⟩,
    ⟨hasKindSel_of_readWord (sel := 6) rfl, whenLive_of_none hf _⟩⟩

/-- Settles O31: the byte is the next draw, of which nothing is said. -/
theorem dataReadReturnsSomeByte : Obligations.DataReadReturnsSomeByte := by
  intro s hf
  exact ⟨hasKindSel_of_readWord (sel := 2) rfl, Config.draw8 s.draws, s.draws + 1,
    whenLive_of_none hf _⟩

end Sys2Proof.Machine
end

section
/-! SUPPORT. The configuration writes (40 R104 to R108): the three that only commit, and the transmit
write, which also sends (41 R147, R148, R152). -/

namespace Sys2Proof.Machine

variable {i : Instr} {mode : Mode} {s : State} {x : BitVec 2} {l : DataLength}

/-! ### The commit -/

/-- A commit of a byte with the three fields leaves what 40 R104 says. -/
theorem commit_committed (s : State) (mode : Mode) (x : BitVec 2) (l : DataLength) :
    Committed s (s.commit (cdmobByte mode.code x l)) mode x l := by
  refine ⟨rfl, ?_, fun m hm => commit_mailbox_of_ne hm⟩
  rw [commit_mailbox, if_pos rfl, cdmobDlc_cdmobByte, cdmobMode_cdmobByte, Mode.ofCode_code]
  rfl

/-- The identifier a commit stores is the shadow's. -/
theorem commit_id_cur (s : State) (v : Byte) :
    ((s.commit v).mailbox s.cur).id = s.shadowId := by
  rw [commit_mailbox, if_pos rfl]

/-- The frame a transmit write sends, its length written out. -/
theorem sentFrame_cdmobByte (s : State) (c x : BitVec 2) (l : DataLength) :
    sentFrame s (cdmobByte c x l) =
      { id := s.shadowId, dlc := l, data := (s.mailbox s.cur).data } := by
  rw [sentFrame, cdmobDlc_cdmobByte]

/-! ### The writes that only commit (40 R105, R107, R108) -/

/-- The configuration writes of X and L that only commit, each with the mode it names. -/
inductive PlainConfig (x : BitVec 2) (l : DataLength) : Instr → Mode → Prop where
  | dis : PlainConfig x l (.wrCdmobDis x l) .dis
  | rx : PlainConfig x l (.wrCdmobRx x l) .rx
  | rxb : PlainConfig x l (.wrCdmobRxb x l) .rxb

theorem plainConfig_of_mem_pairs
    (h : (i, mode) ∈ [(Instr.wrCdmobDis x l, Mode.dis), (Instr.wrCdmobRx x l, Mode.rx),
      (Instr.wrCdmobRxb x l, Mode.rxb)]) : PlainConfig x l i mode := by
  simp only [List.mem_cons, List.not_mem_nil, or_false, Prod.mk.injEq] at h
  obtain ⟨rfl, rfl⟩ | ⟨rfl, rfl⟩ | ⟨rfl, rfl⟩ := h
  · exact .dis
  · exact .rx
  · exact .rxb

theorem plainConfig_of_mem
    (h : i ∈ [Instr.wrCdmobDis x l, Instr.wrCdmobRx x l, Instr.wrCdmobRxb x l]) :
    ∃ mode, PlainConfig x l i mode := by
  simp only [List.mem_cons, List.not_mem_nil, or_false] at h
  obtain rfl | rfl | rfl := h
  · exact ⟨_, .dis⟩
  · exact ⟨_, .rx⟩
  · exact ⟨_, .rxb⟩

theorem PlainConfig.encodeWord_eq (h : PlainConfig x l i mode) :
    encodeWord i = configWord mode.code x l := by
  cases h <;> rfl

/-- The length check, then the commit. -/
theorem PlainConfig.exec_eq (h : PlainConfig x l i mode) (s : State) :
    exec i s = s.whenLive (s.checkLength (cdmobByte mode.code x l)
      (.next (s.commit (cdmobByte mode.code x l)))) := by
  cases h <;> rfl

theorem PlainConfig.exec_of_le (h : PlainConfig x l i mode) (hf : s.fault = none)
    (hl : l.toNat ≤ 8) : exec i s = .next (s.commit (cdmobByte mode.code x l)) := by
  rw [h.exec_eq, whenLive_of_none hf, checkLength_of_le (by rwa [cdmobDlc_cdmobByte])]

theorem PlainConfig.exec_of_gt (h : PlainConfig x l i mode) (hf : s.fault = none)
    (hl : 8 < l.toNat) : exec i s = .next (s.faulted (.dlc (cdmobByte mode.code x l))) := by
  rw [h.exec_eq, whenLive_of_none hf, checkLength_of_gt (by rwa [cdmobDlc_cdmobByte])]

/-- Bits 7:6 of a configuration word are its MODE (30 R71). -/
theorem configWord_mode (c x : BitVec 2) (l : DataLength) :
    (configWord c x l).extractLsb' 6 2 = c := by
  apply BitVec.eq_of_toNat_eq
  rw [toNat_extract, configWord_toNat]
  omega

/-- Settles O21: the length check decides between the commit and the fault. -/
theorem configurationWritesCommit : Obligations.ConfigurationWritesCommit := by
  rintro s x l hf ⟨i, mode⟩ hmem
  have hi : PlainConfig x l i mode := plainConfig_of_mem_pairs hmem
  refine ⟨hasKindSel_of_writeWord (sel := 1) hi.encodeWord_eq, ?_, fun hl => ?_, hi.exec_of_gt hf⟩
  · change (encodeWord i).extractLsb' 6 2 = mode.code
    rw [hi.encodeWord_eq, configWord_mode]
  · exact ⟨_, hi.exec_of_le hf hl, commit_committed s mode x l, rfl⟩

/-! ### The transmit write (40 R106) -/

theorem exec_wrCdmobTx_of_gt (hf : s.fault = none) (hl : 8 < l.toNat) :
    exec (.wrCdmobTx x l) s = .next (s.faulted (.dlc (cdmobByte Mode.tx.code x l))) := by
  rw [exec, execWrCdmobTx, whenLive_of_none hf, checkLength_of_gt (by rwa [cdmobDlc_cdmobByte])]

theorem exec_wrCdmobTx_of_not_txHolds (hf : s.fault = none) (hl : l.toNat ≤ 8)
    (hh : s.txHolds = false) :
    exec (.wrCdmobTx x l) s = .next (s.transmit (cdmobByte Mode.tx.code x l)) := by
  rw [exec, execWrCdmobTx, whenLive_of_none hf, checkLength_of_le (by rwa [cdmobDlc_cdmobByte]), hh]
  rfl

/-- A transmit write does not hold where the queue has room (41 R148). -/
theorem txHolds_of_room (h : s.txq.length < s.cfg.txqDepth) : s.txHolds = false := by
  simp [State.txHolds, h]

/-- A transmit write never holds without a bridge (41 R152). -/
theorem txHolds_of_noBridge (h : s.cfg.bridgePresent = false) : s.txHolds = false := by
  simp [State.txHolds, h]

/-- A transmit write commits like the other configuration writes. -/
theorem transmit_committed (s : State) (x : BitVec 2) (l : DataLength) :
    Committed s (s.transmit (cdmobByte Mode.tx.code x l)) .tx x l := by
  obtain ⟨hcdmob, hcur, hother⟩ := commit_committed s .tx x l
  refine ⟨?_, ?_, fun m hm => ?_⟩
  · rw [transmit_eq]
    exact hcdmob
  · rw [transmit_mailbox, hcur]
  · rw [transmit_mailbox, hother m hm]

/-- With a bridge the frame is queued (40 R106). -/
theorem transmit_eq_of_bridge (hb : s.cfg.bridgePresent = true) (v : Byte) :
    s.transmit v =
      { s with
        cdmob := v
        mob := (s.transmit v).mob
        txbsy := true
        txq := s.txq ++ [⟨s.cur, sentFrame s v⟩]
        hist := s.hist ++ [.transmit s.cur, .txQueued s.cur (sentFrame s v)] } := by
  rw [transmit_eq]
  simp [hb]

/-- Without a bridge the frame is dropped (41 R152). -/
theorem transmit_eq_of_noBridge (hb : s.cfg.bridgePresent = false) (v : Byte) :
    s.transmit v =
      { s with
        cdmob := v
        mob := (s.transmit v).mob
        txbsy := true
        hist := s.hist ++ [.transmit s.cur, .txDropped s.cur (sentFrame s v)] } := by
  rw [transmit_eq]
  simp [hb]

/-- Settles O22: the queue has room, so the write sends the frame it commits. -/
theorem transmitQueuesTheCommittedFrame : Obligations.TransmitQueuesTheCommittedFrame := by
  intro s x l hf hl hb hroom f
  have hframe : sentFrame s (cdmobByte Mode.tx.code x l) = f := sentFrame_cdmobByte ..
  have ht := transmit_eq_of_bridge hb (cdmobByte Mode.tx.code x l)
  rw [hframe] at ht
  refine ⟨hasKindSel_of_writeWord (sel := 1) rfl, s.transmit (cdmobByte Mode.tx.code x l),
    exec_wrCdmobTx_of_not_txHolds hf hl (txHolds_of_room hroom), transmit_committed s x l, ?_, ?_, ?_,
    ?_⟩ <;> rw [ht]

/-- Settles O23: without a bridge nothing holds, and the frame is dropped. -/
theorem transmitWithoutBridgeDropsTheFrame : Obligations.TransmitWithoutBridgeDropsTheFrame := by
  intro s x l hf hl hb f
  have hframe : sentFrame s (cdmobByte Mode.tx.code x l) = f := sentFrame_cdmobByte ..
  have ht := transmit_eq_of_noBridge hb (cdmobByte Mode.tx.code x l)
  rw [hframe] at ht
  refine ⟨s.transmit (cdmobByte Mode.tx.code x l),
    exec_wrCdmobTx_of_not_txHolds hf hl (txHolds_of_noBridge hb), transmit_committed s x l, ?_, ?_,
    ?_⟩ <;> rw [ht]

/-- Settles O24: the check comes first; a write that passed it and holds waits. -/
theorem transmitChecksLengthBeforeItHolds : Obligations.TransmitChecksLengthBeforeItHolds := by
  intro s x l hf
  exact ⟨exec_wrCdmobTx_of_gt hf, fun hl hb hfull =>
    exec_of_waits hf (waits_iff.mpr ⟨hb, .inl ⟨x, l, rfl, hl, hfull⟩⟩)⟩

/-! ### A SEND after a configuration write (41 R141) -/

/-- A SEND of a mailbox number returns that mailbox's frame. -/
theorem exec_hostSend_of_mailbox {m : Byte} {n : MobId} (hf : s.fault = none)
    (hb : s.cfg.bridgePresent = true) (hm : m.toNat = n.val) :
    exec (.hostSend m) s = .next (s.returnLookup (s.capture n)) := by
  rw [exec, execHostSend, hostRequest_of_ready hf hb, mobOf_eq_some.mpr hm]

/-- The bank's frame of the current mailbox after a transmit write is the frame sent. -/
theorem capture_transmit (s : State) (v : Byte) :
    (s.transmit v).capture s.cur = sentFrame s v := by
  rw [State.capture, transmit_mailbox]
  exact capture_commit s v

/-- Settles O26: commit and transmit write leave in the bank the frame of the values written. -/
theorem sendAfterCommitReturnsWhatWasWritten :
    Obligations.SendAfterCommitReturnsWhatWasWritten := by
  intro s x l m i hf hb hl hm hi
  obtain hmem | ⟨rfl, hroom⟩ := hi
  · obtain ⟨mode, hi⟩ := plainConfig_of_mem hmem
    refine ⟨_, _, hi.exec_of_le hf hl, exec_hostSend_of_mailbox hf hb hm, ?_⟩
    rw [State.returnLookup_lookupFrame, capture_commit, sentFrame_cdmobByte]
    rfl
  · have ht := transmit_eq_of_bridge hb (cdmobByte Mode.tx.code x l)
    refine ⟨_, _, exec_wrCdmobTx_of_not_txHolds hf hl (txHolds_of_room hroom),
      exec_hostSend_of_mailbox (by rw [ht]; exact hf) (by rw [ht]; exact hb) hm, ?_⟩
    rw [State.returnLookup_lookupFrame, capture_transmit, sentFrame_cdmobByte]
    rfl

end Sys2Proof.Machine
end

section
/-! SUPPORT. The mailbox-select write of a legal number (40 R101 to R103): the snapshot of the old
mailbox, and the shadow registers loaded from the new one. -/

namespace Sys2Proof.Machine

variable {s : State} {v : Byte} {n : MobId}

theorem exec_wrPage_of_mailbox (hf : s.fault = none) (hn : (pageMobnb v).toNat = n.val) :
    exec (.wrPage v) s = .next (s.select v n) := by
  rw [exec, execWrPage, whenLive_of_none hf, mobOf_eq_some.mpr hn]

/-- The slot a snapshot writes is what the shadow describes, its data bytes kept (40 R102). -/
theorem snapshot_mailbox_self (s : State) (c : MobId) :
    (s.snapshot c).mailbox c =
      shadowObject s (cdmobDlc s.cdmob) (Mode.ofCode (cdmobMode s.cdmob)) (s.mailbox c).data := by
  rw [snapshot_mailbox, if_pos rfl]
  rfl

/-- PAGE takes the written spare bit, number and AINC, and the index of the mailbox selected. -/
theorem select_page (hn : (pageMobnb v).toNat = n.val) :
    (s.select v n).page =
      pageByte (pageSpare v) (pageMobnb v) (pageAinc v) ((s.select v n).mailbox n).idx := by
  have hmobnb : BitVec.ofNat 3 n.val = pageMobnb v := by
    rw [← hn, BitVec.ofNat_toNat, BitVec.setWidth_eq]
  rw [← hmobnb]
  rfl

/-- Settles O18: field by field of `State.select`. -/
theorem selectSavesThenLoads : Obligations.SelectSavesThenLoads := by
  intro s v n hf hn
  exact ⟨hasKindSel_of_writeWord (sel := 0) rfl, s.select v n, exec_wrPage_of_mailbox hf hn,
    snapshot_mailbox_self s s.cur, fun m hm => snapshot_mailbox_of_ne hm, rfl, rfl, rfl, rfl, rfl,
    rfl, select_page hn, rfl, rfl⟩

end Sys2Proof.Machine
end

section
/-! SUPPORT. Several transactions one after another: the runs of a list that end with a next state. -/

namespace Sys2Proof.Machine

variable {i : Instr} {is js : List Instr} {s t : State}

theorem runInstrs_cons_next :
    runInstrs (i :: is) s = .next t ↔ ∃ u, exec i s = .next u ∧ runInstrs is u = .next t := by
  rw [runInstrs]
  cases exec i s <;> simp

theorem runInstrs_singleton_next : runInstrs [i] s = .next t ↔ exec i s = .next t := by
  rw [runInstrs_cons_next]
  simp [runInstrs]

theorem runInstrs_append_next :
    runInstrs (is ++ js) s = .next t ↔
      ∃ u, runInstrs is s = .next u ∧ runInstrs js u = .next t := by
  induction is generalizing s with
  | nil => simp [runInstrs]
  | cons i is ih =>
    simp only [List.cons_append, runInstrs_cons_next, ih]
    constructor
    · rintro ⟨v, hv, u, hu, ht⟩
      exact ⟨u, ⟨v, hv, hu⟩, ht⟩
    · rintro ⟨u, ⟨v, hv, hu⟩, ht⟩
      exact ⟨v, hv, u, hu, ht⟩

theorem exec_hist_prefix (h : exec i s = .next t) : s.hist <+: t.hist :=
  (exec_taken h).2.hist_prefix

theorem runInstrs_hist_prefix (h : runInstrs is s = .next t) : s.hist <+: t.hist := by
  induction is generalizing s with
  | nil => cases h; exact List.prefix_rfl
  | cons i is ih =>
    obtain ⟨u, hu, ht⟩ := runInstrs_cons_next.mp h
    exact (exec_hist_prefix hu).trans (ih ht)

/-- A run that ends without a fault began without one: no transaction clears it (60 R185). -/
theorem fault_eq_none_of_runInstrs (h : runInstrs is s = .next t) (ht : t.fault = none) :
    s.fault = none := by
  cases is with
  | nil => cases h; exact ht
  | cons i is =>
    obtain ⟨u, hu, -⟩ := runInstrs_cons_next.mp h
    exact (exec_taken hu).1

end Sys2Proof.Machine
end

section
/-! SUPPORT. The context-switch round trip (40 R124): while a mailbox is not current and no RECEIVE
matches, its slot stays as the select away from it left it. -/

namespace Sys2Proof.Machine

variable {i : Instr} {is : List Instr} {s t u : State} {v : Byte} {m A : MobId}

/-! ### Runs without a matching RECEIVE -/

/-- No RxMatched event was appended on the way from s to t. -/
def NoMatchSince (s t : State) : Prop :=
  ∃ es, t.hist = s.hist ++ es ∧ ∀ m f, Event.rxMatched m f ∉ es

/-- Where no match was recorded over the whole way, none was over its two parts. -/
theorem NoMatchSince.split (h : NoMatchSince s t) (hsu : s.hist <+: u.hist)
    (hut : u.hist <+: t.hist) : NoMatchSince s u ∧ NoMatchSince u t := by
  obtain ⟨es, hes, hno⟩ := h
  obtain ⟨es₁, h₁⟩ := hsu
  obtain ⟨es₂, h₂⟩ := hut
  have hparts : es = es₁ ++ es₂ := by
    rw [← h₂, ← h₁, List.append_assoc] at hes
    exact (List.append_cancel_left hes).symm
  subst hparts
  exact ⟨⟨es₁, h₁.symm, fun m f hm => hno m f (List.mem_append_left _ hm)⟩,
    ⟨es₂, h₂.symm, fun m f hm => hno m f (List.mem_append_right _ hm)⟩⟩

/-- A RECEIVE that delivered has recorded its match. -/
theorem receive_hist_of_matched {id : Ident} {l : DataLength} {d : Payload}
    (h : (s.receive id l d).hrxResult = some (.matched m)) :
    (s.receive id l d).hist = s.hist ++ [.rxMatched m ⟨id, l, d⟩] := by
  cases hm : s.findMatch id with
  | some k =>
    rw [receive_of_match hm] at h ⊢
    cases h
    rfl
  | none =>
    rw [receive_of_noMatch hm] at h
    cases h

/-- Where no match was recorded, nothing was delivered. -/
theorem not_deliveredTo_of_noMatchSince (h : Taken i s t) (hno : NoMatchSince s t) :
    ¬ DeliveredTo i t m := by
  rintro ⟨id, l, d, rfl, hm⟩
  cases h
  obtain ⟨es, hes, hnone⟩ := hno
  rw [receive_hist_of_matched hm] at hes
  have hes' := List.append_cancel_left hes
  subst hes'
  exact hnone _ _ (List.mem_singleton_self _)

/-! ### A mailbox that is not current -/

/-- The mailbox A is not current, and its slot of the bank is o. -/
def Parked (A : MobId) (o : Mailbox) (s : State) : Prop := s.cur ≠ A ∧ s.mailbox A = o

variable {o : Mailbox}

/-- A transaction that neither selects A nor matches leaves it parked. -/
theorem Taken.parked (h : Taken i s t) (hno : NoMatchSince s t)
    (hsel : ∀ v, i = .wrPage v → (pageMobnb v).toNat ≠ A.val) (hs : Parked A o s) :
    Parked A o t := by
  obtain ⟨hcur, ho⟩ := hs
  have hcur' : t.cur ≠ A := by
    intro hA
    obtain ⟨v, rfl, hv⟩ := h.cur_change (by rw [hA]; exact hcur.symm)
    exact hsel v rfl (by rw [hv, hA])
  refine ⟨hcur', ?_⟩
  by_contra hne
  obtain hA | hdel := h.mailbox_change (m := A) (by rwa [ho])
  · exact hcur hA.symm
  · exact not_deliveredTo_of_noMatchSince h hno hdel

theorem runInstrs_parked (h : runInstrs is s = .next t) (hno : NoMatchSince s t)
    (hsel : ∀ v, .wrPage v ∈ is → (pageMobnb v).toNat ≠ A.val) (hs : Parked A o s) :
    Parked A o t := by
  induction is generalizing s with
  | nil => cases h; exact hs
  | cons i is ih =>
    obtain ⟨u, hu, ht⟩ := runInstrs_cons_next.mp h
    obtain ⟨hnou, hnot⟩ := hno.split (exec_hist_prefix hu) (runInstrs_hist_prefix ht)
    have hpark : Parked A o u := (exec_taken hu).2.parked hnou
      (fun v hv => hsel v (hv ▸ List.mem_cons_self)) hs
    exact ih ht hnot (fun v hv => hsel v (List.mem_cons_of_mem _ hv)) hpark

/-! ### The two selects -/

/-- A select that raised no fault selected the mailbox named. -/
theorem exec_wrPage_next (h : exec (.wrPage v) s = .next t) (hf : t.fault = none) :
    ∃ n : MobId, (pageMobnb v).toNat = n.val ∧ t = s.select v n := by
  obtain ⟨-, htaken⟩ := exec_taken h
  cases htaken with
  | selectFault => cases hf
  | select _ _ n hn => exact ⟨n, hn, rfl⟩

/-- The select away from the current mailbox parks it, with the shadow view in its slot. -/
theorem select_parks {n : MobId} (hn : n ≠ s.cur) (v : Byte) :
    Parked s.cur ((s.snapshot s.cur).mailbox s.cur) (s.select v n) :=
  ⟨hn, rfl⟩

/-- The select of a parked mailbox loads the shadow registers from its slot. -/
theorem select_of_parked (h : Parked A o s) (v : Byte) :
    (s.select v A).mailbox A = o ∧ (s.select v A).idt1 = splitHi o.id ∧
      (s.select v A).idt2 = splitLo o.id ∧ (s.select v A).idm1 = splitHi o.mask ∧
      (s.select v A).idm2 = splitLo o.mask ∧
      (s.select v A).cdmob = cdmobByte o.mode.code 0 o.dlc ∧
      (s.select v A).page = pageByte (pageSpare v) (BitVec.ofNat 3 A.val) (pageAinc v) o.idx := by
  obtain ⟨hcur, rfl⟩ := h
  rw [select_mailbox, select_eq, snapshot_mailbox_of_ne hcur.symm]
  exact ⟨rfl, rfl, rfl, rfl, rfl, rfl, rfl⟩

/-- Bits 7:5 of the low byte survive the packing (30 R76). -/
theorem splitLo_recon_topBits (hi lo : Byte) :
    (splitLo (recon hi lo)).extractLsb' 5 3 = lo.extractLsb' 5 3 := by
  apply BitVec.eq_of_toNat_eq
  rw [toNat_extract, toNat_extract, splitLo_toNat, recon_toNat]
  omega

/-- The run of 40 R124 ends with the select of A from a state in which A is parked, with the shadow
view of the start in its slot. -/
theorem roundTrip_parks {vb va : Byte} (hvb : (pageMobnb vb).toNat ≠ s.cur.val)
    (hva : (pageMobnb va).toNat = s.cur.val)
    (hsel : ∀ v, .wrPage v ∈ is → (pageMobnb v).toNat ≠ s.cur.val)
    (hrun : runInstrs (.wrPage vb :: is ++ [.wrPage va]) s = .next t) (hf : t.fault = none)
    (hno : NoMatchSince s t) :
    ∃ u, Parked s.cur ((s.snapshot s.cur).mailbox s.cur) u ∧ t = u.select va s.cur := by
  obtain ⟨u, hw, hlast⟩ := runInstrs_append_next.mp hrun
  obtain ⟨w, hfirst, hmid⟩ := runInstrs_cons_next.mp hw
  rw [runInstrs_singleton_next] at hlast
  have hmidHist := runInstrs_hist_prefix hmid
  have hlastHist := exec_hist_prefix hlast
  obtain ⟨-, hrest⟩ := hno.split (exec_hist_prefix hfirst) (hmidHist.trans hlastHist)
  obtain ⟨hnomid, -⟩ := hrest.split hmidHist hlastHist
  have hlive : w.fault = none := fault_eq_none_of_runInstrs hmid (exec_taken hlast).1
  obtain ⟨n, hn, rfl⟩ := exec_wrPage_next hfirst hlive
  obtain ⟨k, hk, rfl⟩ := exec_wrPage_next hlast hf
  obtain rfl : k = s.cur := Fin.ext (hk.symm.trans hva)
  have hother : n ≠ s.cur := fun h => hvb (hn.trans (congrArg Fin.val h))
  exact ⟨u, runInstrs_parked hmid hnomid hsel (select_parks hother vb), rfl⟩

/-- Settles O20: the slot saved by the first select is parked until the second loads it. -/
theorem contextSwitchRoundTrip : Obligations.ContextSwitchRoundTrip := by
  intro s t vb va is es hvb hva hsel hrun hf hes hno
  obtain ⟨u, hpark, rfl⟩ := roundTrip_parks hvb hva hsel hrun hf ⟨es, hes, hno⟩
  rw [snapshot_mailbox_self] at hpark
  obtain ⟨hslot, hidt1, hidt2, hidm1, hidm2, hcdmob, hpage⟩ := select_of_parked hpark va
  refine ⟨rfl, ?_, ?_, ?_, ?_, ?_, ?_, ?_, ?_⟩
  · rw [hidt1]; exact splitHi_recon ..
  · rw [hidt2]; exact splitLo_recon_topBits ..
  · rw [hidm1]; exact splitHi_recon ..
  · rw [hidm2]; exact splitLo_recon_topBits ..
  · rw [hcdmob]; exact (cdmobMode_cdmobByte ..).trans (Mode.code_ofCode _)
  · rw [hcdmob]; exact cdmobDlc_cdmobByte ..
  · rw [hpage]; exact pageIndx_pageByte ..
  · rw [hslot]

end Sys2Proof.Machine
end

section
/-! SUPPORT. The data write (40 R110, R122): the byte stored at the shadow index, the index advanced
modulo 8, and consecutive data writes. -/

namespace Sys2Proof.Machine

variable {s t : State} {v : Byte} {i : Fin 8}

/-! ### One data write -/

theorem exec_wrMsg (hf : s.fault = none) (v : Byte) :
    exec (.wrMsg v) s = .next (s.storeData v) :=
  whenLive_of_none hf _

/-- The byte at the shadow index is the one written; the others are kept. -/
theorem storeData_byte (s : State) (v : Byte) (i : Fin 8) :
    ((s.storeData v).mailbox s.cur).data[i] =
      if i.val = (pageIndx s.page).toNat then v else (s.mailbox s.cur).data[i] := by
  rw [storeData_mailbox, if_pos rfl]
  simp [Vector.getElem_set, eq_comm]

/-- A data write writes nothing of its mailbox but data bytes. -/
theorem storeData_mailbox_self (s : State) (v : Byte) :
    (s.storeData v).mailbox s.cur =
      { s.mailbox s.cur with data := ((s.storeData v).mailbox s.cur).data } := by
  rw [storeData_mailbox, if_pos rfl]

/-- The flag, written out (10 R34). -/
theorem aincEn_iff : s.aincEn = true ↔ AincEnabled s := by
  simp [State.aincEn, aincOn, AincEnabled, pageAinc]

/-- With `ainc_en` the index advances by one modulo 8; without it the index stays. -/
theorem storeData_index (s : State) (v : Byte) :
    (pageIndx (s.storeData v).page).toNat =
      if AincEnabled s then ((pageIndx s.page).toNat + 1) % 8 else (pageIndx s.page).toNat := by
  rw [storeData_eq]
  simp only [← aincEn_iff]
  split
  · rw [pageIndx_setIndx, BitVec.toNat_add]
    rfl
  · rfl

/-- Writing the index keeps bits 7:3 of PAGE. -/
theorem setIndx_upper (v : Byte) (i : DataIndex) :
    (setIndx v i).extractLsb' 3 5 = v.extractLsb' 3 5 := by
  apply BitVec.eq_of_toNat_eq
  rw [toNat_extract, toNat_extract, setIndx, pageByte_toNat, pageSpare_toNat, pageMobnb_toNat,
    pageAinc_toNat]
  omega

theorem storeData_page_upper (s : State) (v : Byte) :
    (s.storeData v).page.extractLsb' 3 5 = s.page.extractLsb' 3 5 := by
  rw [storeData_eq]
  dsimp only
  split
  · exact setIndx_upper ..
  · rfl

/-- Settles O27: the stored byte, the rest of the mailbox and of the bank, and PAGE. -/
theorem dataWriteStoresAndAdvances : Obligations.DataWriteStoresAndAdvances := by
  intro s v hf
  exact ⟨hasKindSel_of_writeWord (sel := 2) rfl, s.storeData v, exec_wrMsg hf v, storeData_byte s v,
    storeData_mailbox_self s v, fun m hm => storeData_mailbox_of_ne hm, storeData_index s v,
    storeData_page_upper s v, rfl⟩

/-! ### Consecutive data writes -/

/-- A data write keeps `ainc_en`. -/
theorem storeData_aincEnabled (h : AincEnabled s) : AincEnabled (s.storeData v) := by
  rw [← aincEn_iff] at h ⊢
  have hainc : pageAinc (s.storeData v).page = pageAinc s.page := by
    rw [storeData_eq]
    simp [h]
  rw [State.aincEn, hainc]
  exact h

/-- t is what the data writes of vs leave of s (40 R122): the index advanced by their number, and
each of the last eight bytes at its own index. -/
structure DataWritten (s : State) (vs : List Byte) (t : State) : Prop where
  live  : t.fault = none
  ainc  : AincEnabled t
  cur   : t.cur = s.cur
  index : (pageIndx t.page).toNat = ((pageIndx s.page).toNat + vs.length) % 8
  bytes : ∀ (j : Nat) (hj : j < vs.length), vs.length ≤ j + 8 →
    ∀ i : Fin 8, i.val = ((pageIndx s.page).toNat + j) % 8 → (t.mailbox s.cur).data[i] = vs[j]

theorem dataWritten_nil (hf : s.fault = none) (ha : AincEnabled s) : DataWritten s [] s where
  live := hf
  ainc := ha
  cur := rfl
  index := (Nat.mod_eq_of_lt (pageIndx s.page).isLt).symm
  bytes := nofun

/-- One more data write overwrites the byte eight writes back, and keeps the seven between. -/
theorem DataWritten.storeData {vs : List Byte} (h : DataWritten s vs t) (v : Byte) :
    DataWritten s (vs ++ [v]) (t.storeData v) where
  live := h.live
  ainc := storeData_aincEnabled h.ainc
  cur := h.cur
  index := by
    rw [storeData_index, if_pos h.ainc, h.index, List.length_append, List.length_singleton]
    omega
  bytes := by
    intro j hj hlast i hi
    rw [List.length_append, List.length_singleton] at hj hlast
    rw [← h.cur, storeData_byte, h.index]
    obtain hlt | rfl := Nat.lt_succ_iff_lt_or_eq.mp hj
    · rw [if_neg (by omega), h.cur, List.getElem_append_left hlt]
      exact h.bytes j hlt (by omega) i hi
    · rw [if_pos hi, List.getElem_concat_length rfl]

theorem runInstrs_wrMsg (hf : s.fault = none) (ha : AincEnabled s) (vs : List Byte) :
    ∃ t, runInstrs (vs.map Instr.wrMsg) s = .next t ∧ DataWritten s vs t := by
  induction vs using List.reverseRecOn with
  | nil => exact ⟨s, rfl, dataWritten_nil hf ha⟩
  | append_singleton vs v ih =>
    obtain ⟨t, hrun, hw⟩ := ih
    refine ⟨t.storeData v, ?_, hw.storeData v⟩
    rw [List.map_append, runInstrs_append_next]
    exact ⟨t, hrun, runInstrs_singleton_next.mpr (exec_wrMsg hw.live v)⟩

/-- Settles O28: by induction on the writes, the last one apart. -/
theorem dataWritesWrapModuloEight : Obligations.DataWritesWrapModuloEight := by
  intro s vs hf ha
  obtain ⟨t, hrun, hw⟩ := runInstrs_wrMsg hf ha vs
  exact ⟨t, hrun, hw.index, hw.bytes⟩

end Sys2Proof.Machine
end

section
/-! SUPPORT. The identifier hazard (70 R221): a matching RECEIVE writes the shadow identifier, which the
next commit or snapshot stores. -/

namespace Sys2Proof.Machine

variable {s t : State} {id : Ident} {l : DataLength} {d : Payload} {m : MobId}

/-- A RECEIVE that matched leaves a live state of a block with a bridge, the received identifier in
the shadow registers, and `cur`, the queue and the launch as they were. -/
structure ReceivedId (s : State) (id : Ident) (t : State) : Prop where
  live     : t.fault = none
  bridge   : t.cfg.bridgePresent = true
  shadowId : t.shadowId = id
  cur      : t.cur = s.cur
  txq      : t.txq = s.txq
  cfg      : t.cfg = s.cfg

theorem receivedId_of_matched (h : exec (.hostReceive id l d) s = .next t)
    (hm : t.hrxResult = some (.matched m)) : ReceivedId s id t := by
  obtain ⟨hf, htaken⟩ := exec_taken h
  cases htaken with
  | receive _ _ _ _ hb _ =>
    cases hfind : s.findMatch id with
    | some k =>
      rw [receive_of_match hfind]
      exact ⟨hf, hb, recon_split id, rfl, rfl, rfl⟩
    | none =>
      rw [receive_of_noMatch hfind] at hm
      cases hm

/-- A mailbox select stores the shadow identifier in the mailbox it leaves. -/
theorem select_id_cur (s : State) (v : Byte) (n : MobId) :
    ((s.select v n).mailbox s.cur).id = s.shadowId := by
  rw [select_mailbox, snapshot_mailbox, if_pos rfl]

/-- Settles O59: commit, transmit write and select store the shadow identifier, which is the received
one. -/
theorem receiveReplacesTheIdentifierToCommit :
    Obligations.ReceiveReplacesTheIdentifierToCommit := by
  intro s t id l d m x k h hm
  obtain ⟨hf, hb, hid, hcur, htxq, hcfg⟩ := receivedId_of_matched h hm
  rw [← hcur, ← htxq, ← hcfg]
  refine ⟨fun hk => ⟨fun i hi => ?_, fun hroom => ?_⟩, fun v hv => ?_⟩
  · obtain ⟨mode, hi⟩ := plainConfig_of_mem hi
    exact ⟨_, hi.exec_of_le hf hk, (commit_id_cur t _).trans hid⟩
  · refine ⟨_, sentFrame t (cdmobByte Mode.tx.code x k),
      exec_wrCdmobTx_of_not_txHolds hf hk (txHolds_of_room hroom), ?_, hid, ?_⟩
    · rw [transmit_mailbox]
      exact (commit_id_cur t _).trans hid
    · rw [transmit_eq_of_bridge hb]
  · exact ⟨_, exec_wrPage_of_mailbox hf (n := ⟨_, hv⟩) rfl, (select_id_cur t v _).trans hid⟩

end Sys2Proof.Machine
end

section
/-! SUPPORT. The host requests (41 R140, R141): their words, their refusal without a bridge, the
SEND, and the queue that stays empty without a bridge (41 R152). -/

namespace Sys2Proof.Machine

variable {i : Instr} {s t : State} {m : Byte}

/-- A word whose upper byte is 0x20 + SEL has KIND 2 and that SEL (30 R82). -/
theorem hasKindSel_of_hostWord {sel : Nat} (h : (encodeWord i).toNat / 2 ^ 24 = 32 + sel)
    (hsel : sel < 16) : HasKindSel i 2 sel := by
  constructor
  · change (wordKind (encodeWord i)).toNat = 2
    rw [wordKind_toNat]
    omega
  · change (wordSel (encodeWord i)).toNat = sel
    rw [wordSel_toNat]
    omega

theorem hostSend_hasKindSel (m : Byte) : HasKindSel (.hostSend m) 2 0 :=
  hasKindSel_of_hostWord (by rw [sendWord_toNat]; omega) (by decide)

theorem hostReceive_hasKindSel (id : Ident) (l : DataLength) (d : Payload) :
    HasKindSel (.hostReceive id l d) 2 1 :=
  hasKindSel_of_hostWord (by rw [receiveWord_toNat]; omega) (by decide)

theorem hostTxpop_hasKindSel (res : WriteResult) (m : Byte) : HasKindSel (.hostTxpop res m) 2 2 :=
  hasKindSel_of_hostWord (by rw [popWord_toNat]; omega) (by decide)

/-- Settles O38: each of the four is a host request, which is refused without a bridge. -/
theorem noHostRequestWithoutBridge : Obligations.NoHostRequestWithoutBridge := by
  intro s hf hb
  exact ⟨fun _ => hostRequest_of_noBridge hf hb _, fun _ _ _ => hostRequest_of_noBridge hf hb _,
    fun _ _ => hostRequest_of_noBridge hf hb _, fun _ => hostRequest_of_noBridge hf hb _⟩

/-- A SEND of 6 or more names no mailbox and faults (41 R141). -/
theorem exec_hostSend_of_noMailbox (hf : s.fault = none) (hb : s.cfg.bridgePresent = true)
    (hm : 6 ≤ m.toNat) : exec (.hostSend m) s = .next (s.faulted (.mobIndex m)) := by
  rw [exec, execHostSend, hostRequest_of_ready hf hb, mobOf_eq_none.mpr hm]
  rfl

/-- Settles O32: the index names a mailbox, whose frame is captured, or none. -/
theorem sendReturnsTheBankFrame : Obligations.SendReturnsTheBankFrame := by
  intro s m hf hb
  exact ⟨hostSend_hasKindSel m, fun n hn => exec_hostSend_of_mailbox hf hb hn,
    exec_hostSend_of_noMailbox hf hb⟩

/-- Without a bridge a transmit write queues nothing, and no TXPOP is taken. -/
theorem Taken.noBridgeNoQueue (h : Taken i s t) (hs : NoBridgeNoQueue s) : NoBridgeNoQueue t := by
  intro hb
  obtain ⟨hcfg, -, -⟩ := h.sameSurroundings
  have hnone : s.cfg.bridgePresent = false := by rwa [← hcfg]
  cases h
  case tx => rw [transmit_eq_of_noBridge hnone]; exact hs hnone
  case popOk e q hp _ | popShort e q hp _ => exact absurd (hnone.symm.trans hp) nofun
  case receive => rw [receive_eq]; exact hs hnone
  all_goals exact hs hnone

/-- Settles O48: every transaction keeps the queue empty without a bridge, so every step does. -/
theorem stepKeepsTheQueueEmptyWithoutBridge : Obligations.StepKeepsTheQueueEmptyWithoutBridge := by
  intro s t hs h
  exact step_keeps (P := NoBridgeNoQueue) (fun _ hu => hu) (fun _ _ hu => hu) (fun _ _ hu => hu)
    (fun _ _ _ hi => hi.noBridgeNoQueue) h hs

end Sys2Proof.Machine
end

section
/-! SUPPORT. The RECEIVE (41 R142 to R146): the mailbox its scan finds, the delivery to it, and the
length that a later select overwrites (70 R222). -/

namespace Sys2Proof.Machine

variable {s t : State} {id : Ident} {l : DataLength} {d : Payload} {m k : MobId}

/-! ### The scan -/

theorem accepts_eq_false_iff {o : Mailbox} : o.accepts id = false ↔ ¬ Accepts o id := by
  rw [← Bool.not_eq_true, accepts_iff]

/-- The lowest mailbox that accepts is the one found. -/
theorem findMatch_of_lowest (hm : Accepts (s.mailbox m) id)
    (hlow : ∀ k, k < m → ¬ Accepts (s.mailbox k) id) : s.findMatch id = some m :=
  findMatch_eq_some.mpr ⟨(accepts_iff _ _).mpr hm, fun k hk => accepts_eq_false_iff.mpr (hlow k hk)⟩

/-- Where some mailbox accepts, one is found, and none below it accepts. -/
theorem findMatch_le (hk : Accepts (s.mailbox k) id) : ∃ w, w ≤ k ∧ s.findMatch id = some w := by
  have hacc : (s.mailbox k).accepts id = true := (accepts_iff _ _).mpr hk
  cases h : s.findMatch id with
  | none => exact absurd (hacc.symm.trans (findMatch_eq_none.mp h k)) nofun
  | some w =>
    obtain ⟨-, hlow⟩ := findMatch_eq_some.mp h
    refine ⟨w, ?_, rfl⟩
    by_contra hlt
    exact absurd (hacc.symm.trans (hlow k (not_le.mp hlt))) nofun

/-! ### The transaction -/

theorem exec_hostReceive (hf : s.fault = none) (hb : s.cfg.bridgePresent = true)
    (hl : l.toNat ≤ 8) : exec (.hostReceive id l d) s = .next (s.receive id l d) := by
  rw [exec, execHostReceive, hostRequest_of_ready hf hb, if_pos hl]

/-- A RECEIVE that answers a next state passed its checks and left its effects. -/
theorem exec_hostReceive_next (h : exec (.hostReceive id l d) s = .next t) :
    s.fault = none ∧ t = s.receive id l d := by
  obtain ⟨hf, htaken⟩ := exec_taken h
  cases htaken
  exact ⟨hf, rfl⟩

/-- The result matched m exactly when the scan found m (41 R142). -/
theorem receive_matched_iff :
    (s.receive id l d).hrxResult = some (.matched m) ↔ s.findMatch id = some m := by
  cases h : s.findMatch id with
  | some w => rw [receive_of_match h]; simp
  | none => rw [receive_of_noMatch h]; simp

/-- The slot found takes the length and the data bytes (41 R144). -/
theorem receive_mailbox_found (h : s.findMatch id = some m) :
    (s.receive id l d).mailbox m =
      { s.mailbox m with dlc := l, data := deliveredData s.draws l d } := by
  rw [receive_mailbox_of_match h, deliver_mailbox, if_pos rfl]

/-- Every other slot is kept (41 R146). -/
theorem receive_mailbox_of_ne (h : s.findMatch id = some m) (hk : k ≠ m) :
    (s.receive id l d).mailbox k = s.mailbox k := by
  rw [receive_mailbox_of_match h, deliver_mailbox, if_neg hk]

/-- Settles O33: the scan finds m, and the rest is the delivery to it. -/
theorem receiveDeliversToTheLowestMatch : Obligations.ReceiveDeliversToTheLowestMatch := by
  intro s id l d m hf hb hl hm hlow
  have hfind : s.findMatch id = some m := findMatch_of_lowest hm hlow
  have hslot := receive_mailbox_found (l := l) (d := d) hfind
  refine ⟨hostReceive_hasKindSel id l d, s.receive id l d, exec_hostReceive hf hb hl,
    fun i hi => ?_, ?_, fun k hk => receive_mailbox_of_ne hfind hk, ?_, ?_,
    receive_matched_iff.mpr hfind, receive_hist_of_matched (receive_matched_iff.mpr hfind),
    receive_eq s id l d⟩
  · rw [hslot]
    exact deliveredData_getElem s.draws l d i hi
  · rw [hslot]
  · rw [receive_of_match hfind]
    rfl
  · rw [receive_of_match hfind]
    rfl

/-- Settles O34: a mailbox that accepts is in mode RX, so in both cases the scan finds none. -/
theorem receiveWithoutMatchChangesNothing : Obligations.ReceiveWithoutMatchChangesNothing := by
  intro s id l d hf hb hl h
  have hnone : ∀ m, ¬ Accepts (s.mailbox m) id := by
    obtain h | h := h
    · exact h
    · exact fun m ⟨hrx, _⟩ => h m hrx
  rw [exec_hostReceive hf hb hl,
    receive_of_noMatch (findMatch_eq_none.mpr fun m => accepts_eq_false_iff.mpr (hnone m))]

/-- Settles O35: the mailbox found is at most j, so it is not k. -/
theorem receiveLeavesHigherMatchesUnchanged : Obligations.ReceiveLeavesHigherMatchesUnchanged := by
  intro s t id l d j k hjk hj _ h
  obtain ⟨-, rfl⟩ := exec_hostReceive_next h
  obtain ⟨w, hw, hfind⟩ := findMatch_le hj
  exact ⟨receive_mailbox_of_ne hfind (hw.trans_lt hjk).ne', w, hw, receive_matched_iff.mpr hfind⟩

/-! ### The received length of the current mailbox (70 R222) -/

/-- A select puts the shadow length into the mailbox it leaves. -/
theorem select_dlc_cur (s : State) (v : Byte) (n : MobId) :
    ((s.select v n).mailbox s.cur).dlc = cdmobDlc s.cdmob := by
  rw [select_mailbox, snapshot_mailbox_self]

/-- Settles O60: a RECEIVE writes neither CDMOB nor `cur`, so the select's snapshot puts back the
length that CDMOB held before it. -/
theorem selectLosesTheReceivedLength : Obligations.SelectLosesTheReceivedLength := by
  intro s t id l d v h hm hv
  obtain ⟨hf, rfl⟩ := exec_hostReceive_next h
  have hslot := receive_mailbox_found (l := l) (d := d) (receive_matched_iff.mp hm)
  have hfault : (s.receive id l d).fault = none := by rw [receive_eq]; exact hf
  have hcur : (s.receive id l d).cur = s.cur := by rw [receive_eq]
  have hcdmob : (s.receive id l d).cdmob = s.cdmob := by rw [receive_eq]
  refine ⟨by rw [hslot], _, exec_wrPage_of_mailbox hfault (n := ⟨_, hv⟩) rfl, ?_, ?_⟩
  · rw [← hcur, select_dlc_cur, hcdmob]
    rfl
  · rw [select_mailbox, snapshot_data]

end Sys2Proof.Machine
end

section
/-! SUPPORT. The TXPOP (41 R149 to R151): the entry it takes, its event, the fault of a failed
write, and the room it makes for a transmit write that holds (41 R148). -/

namespace Sys2Proof.Machine

variable {s : State} {res : WriteResult} {ev : Event} {m : Byte} {e : TxEntry} {q : List TxEntry}

/-- The results that take the entry e, each with the event it records. -/
inductive PopEvent (e : TxEntry) : WriteResult → Event → Prop where
  | ok : PopEvent e .ok (.txWritten e.m e.frame)
  | short : PopEvent e .short (.txShortWrite e.m e.frame)

theorem popEvent_of_mem
    (h : (res, ev) ∈ [(WriteResult.ok, Event.txWritten e.m e.frame),
      (WriteResult.short, Event.txShortWrite e.m e.frame)]) : PopEvent e res ev := by
  simp only [List.mem_cons, List.not_mem_nil, or_false, Prod.mk.injEq] at h
  obtain ⟨rfl, rfl⟩ | ⟨rfl, rfl⟩ := h
  · exact .ok
  · exact .short

theorem popEvent_of_ne_error (e : TxEntry) (h : res ≠ .error) : ∃ ev, PopEvent e res ev := by
  cases res with
  | ok => exact ⟨_, .ok⟩
  | short => exact ⟨_, .short⟩
  | error => exact absurd rfl h

/-! ### The transaction, by its result -/

section
variable (hf : s.fault = none) (hb : s.cfg.bridgePresent = true)
  (he : takeOldest m.toNat s.txq = some (e, q))
include hf hb he

theorem PopEvent.exec_eq (h : PopEvent e res ev) :
    exec (.hostTxpop res m) s = .next (s.popFrame ev e q) := by
  cases h <;> rw [exec, execHostTxpop, hostRequest_of_ready hf hb, he]

theorem exec_hostTxpop_error :
    exec (.hostTxpop .error m) s = .next (s.faulted (.hostWrite m)) := by
  rw [exec, execHostTxpop, hostRequest_of_ready hf hb, he]
  rfl

end

/-- A TXPOP clears `txbsy` only under on_drain and at an emptied queue (41 R151). -/
theorem txbsyAfterPop_eq (c : TxbsyClear) (q : List TxEntry) (b : Bool) :
    txbsyAfterPop c q b = if c = .onDrain ∧ q = [] then false else b := by
  cases c with
  | never => simp [txbsyAfterPop]
  | onDrain => simp [txbsyAfterPop]

/-- A SEND leaves what the host writes to its endpoint, faulting or not (41 R150). -/
theorem exec_hostSend_endpointBytes {t : State} (h : exec (.hostSend m) s = .next t) :
    t.endpointBytes = s.endpointBytes := by
  obtain ⟨-, htaken⟩ := exec_taken h
  cases htaken with
  | sendFault => rfl
  | send => exact returnLookup_endpointBytes _ _

/-- Settles O36: the entry between older and younger is the one taken. -/
theorem popTakesTheOldestOfItsMailbox : Obligations.PopTakesTheOldestOfItsMailbox := by
  intro s m hf hb
  refine ⟨fun res => hostTxpop_hasKindSel res m, fun older younger e hq hm hne => ?_,
    fun k t h => exec_hostSend_endpointBytes h,
    fun hnone res => exec_of_waits hf (waits_iff.mpr ⟨hb, .inr ⟨res, m, rfl, hnone⟩⟩)⟩
  have he : takeOldest m.toNat s.txq = some (e, older ++ younger) :=
    takeOldest_eq_some.mpr ⟨older, younger, hq, rfl, hm, hne⟩
  refine ⟨?_, exec_hostTxpop_error hf hb he⟩
  rintro ⟨res, ev⟩ hmem
  have hexec := (popEvent_of_mem hmem).exec_eq hf hb he
  refine ⟨?_, fun t ht => ?_⟩
  · rw [hexec, popFrame_eq, txbsyAfterPop_eq]
  · cases hexec.symm.trans ht
    exact popFrame_endpointBytes ..

/-! ### The room a TXPOP makes -/

/-- Taking an entry shortens the queue by one. -/
theorem takeOldest_length {k : Nat} {p : List TxEntry} (h : takeOldest k p = some (e, q)) :
    q.length + 1 = p.length := by
  obtain ⟨older, younger, rfl, rfl, -, -⟩ := takeOldest_eq_some.mp h
  simp only [List.length_append, List.length_cons, Nat.add_assoc]

theorem takeOldest_of_mem {k : Nat} {p : List TxEntry} (h : ∃ e ∈ p, e.m.val = k) :
    ∃ e q, takeOldest k p = some (e, q) := by
  obtain ⟨x, hx, hk⟩ := h
  cases htake : takeOldest k p with
  | none => exact absurd hk (takeOldest_eq_none.mp htake x hx)
  | some r => exact ⟨r.1, r.2, rfl⟩

/-- Settles O25: the queue is one shorter after the TXPOP, so the transmit write does not hold. -/
theorem popReleasesAHeldTransmit : Obligations.PopReleasesAHeldTransmit := by
  intro s res m x l hf hb _ hfull hres hentry hl
  obtain ⟨e, q, he⟩ := takeOldest_of_mem hentry
  obtain ⟨ev, hev⟩ := popEvent_of_ne_error e hres
  have hlen : q.length + 1 = s.cfg.txqDepth := (takeOldest_length he).trans hfull
  have hroom : q.length < s.cfg.txqDepth := Nat.lt_of_succ_le hlen.le
  have hbridge : (s.popFrame ev e q).cfg.bridgePresent = true := hb
  refine ⟨s.popFrame ev e q, _, hev.exec_eq hf hb he,
    exec_wrCdmobTx_of_not_txHolds hf hl (txHolds_of_room hroom), ?_, ?_,
    sentFrame (s.popFrame ev e q) (cdmobByte Mode.tx.code x l), ?_⟩
  · rw [transmit_eq]
  · rw [transmit_eq_of_bridge hbridge]
    exact (List.length_append ..).trans hlen
  · rw [transmit_eq_of_bridge hbridge]
    rfl

end Sys2Proof.Machine
end

section
/-! SUPPORT. The serializer and the deserializer (41 R160 to R164): the identifier word and its
bytes are inverse in either byte order, and the sixteen bytes are read back field by field. -/

namespace Sys2Proof.Machine

variable {o : ByteOrder} {b0 b1 b2 b3 n : Byte}

/-! ### The identifier word -/

theorem wordBytes_eq_iff {w : Word} :
    wordBytes w = [b0, b1, b2, b3] ↔ w = b3 ++ b2 ++ b1 ++ b0 := by
  have hw := w.isLt
  have hword : (b3 ++ b2 ++ b1 ++ b0 : Word).toNat =
      ((b3.toNat * 2 ^ 8 + b2.toNat) * 2 ^ 8 + b1.toNat) * 2 ^ 8 + b0.toNat := by
    rw [toNat_append_add, toNat_append_add, toNat_append_add]
  simp only [wordBytes, List.cons.injEq, and_true, ← BitVec.toNat_inj, toNat_extract, hword]
  omega

/-- The ordered bytes of a word are four bytes that give the word back (41 R160, R162). -/
theorem orderedBytes_eq_iff {w : Word} :
    orderedBytes o w = [b0, b1, b2, b3] ↔ w = word32 o b0 b1 b2 b3 := by
  cases o with
  | little => exact wordBytes_eq_iff
  | big =>
    rw [orderedBytes, List.reverse_eq_iff]
    exact wordBytes_eq_iff

theorem orderedBytes_exists (o : ByteOrder) (w : Word) :
    ∃ b0 b1 b2 b3, orderedBytes o w = [b0, b1, b2, b3] := by
  cases o <;> exact ⟨_, _, _, _, rfl⟩

/-- The bytes of an identifier word, least significant first: its bits 31:11 are zero. -/
theorem wordBytes_ident (id : Ident) :
    wordBytes (id.setWidth 32) = [id.extractLsb' 0 8, 0#5 ++ id.extractLsb' 8 3, 0, 0] := by
  have hid := id.isLt
  rw [wordBytes_eq_iff]
  apply BitVec.eq_of_toNat_eq
  rw [toNat_append_add, toNat_append_add, toNat_append_add, toNat_append_add, toNat_extract,
    toNat_extract, BitVec.toNat_setWidth]
  simp
  omega

/-! ### The sixteen bytes (41 R160) -/

theorem serialize_length (o : ByteOrder) (f : WireFrame) : (serialize o f).length = 16 := by
  obtain ⟨b0, b1, b2, b3, hw⟩ := orderedBytes_exists o (f.id.setWidth 32)
  simp [serialize, hw]

/-- A serialized frame as the list of its four parts. -/
theorem serialize_eq {f : WireFrame} (hw : orderedBytes o (f.id.setWidth 32) = [b0, b1, b2, b3]) :
    serialize o f = [b0, b1, b2, b3, f.dlc.setWidth 8, 0, 0, 0] ++ f.data.toList := by
  rw [serialize, hw]
  rfl

/-- Settles O39: the identifier word by its bytes, the rest by position in the list. -/
theorem serializedLayout : Obligations.SerializedLayout := by
  intro f
  refine ⟨fun o => serialize_length o f, ?_, ?_, fun o => ?_⟩
  · rw [serialize_eq (o := .little) (wordBytes_ident f.id)]
    rfl
  · rw [serialize_eq (o := .big) (congrArg List.reverse (wordBytes_ident f.id))]
    rfl
  · obtain ⟨b0, b1, b2, b3, hw⟩ := orderedBytes_exists o (f.id.setWidth 32)
    have hlength : f.dlc.setWidth 8 = 0#4 ++ f.dlc := BitVec.setWidth_eq_append (by decide)
    rw [serialize_eq hw, hlength]
    refine ⟨rfl, fun i => ?_⟩
    rw [List.getElem?_append_right (Nat.le_add_right 8 i)]
    simp

/-! ### The round trips (41 R162, R164) -/

/-- A payload is the vector of its eight bytes. -/
theorem payload_eq (d : Payload) : d = #v[d[0], d[1], d[2], d[3], d[4], d[5], d[6], d[7]] := by
  ext i hi
  match i, hi with
  | 0, _ | 1, _ | 2, _ | 3, _ | 4, _ | 5, _ | 6, _ | 7, _ => rfl

/-- Sixteen bytes with a length byte of 0 to 8 are a frame, whatever bytes 5 to 7 are (41 R162). -/
theorem deserialize_sixteen {p5 p6 p7 : Byte} (o : ByteOrder) (b0 b1 b2 b3 : Byte) (d : Payload)
    (hn : n.toNat ≤ 8) :
    deserialize o ([b0, b1, b2, b3, n, p5, p6, p7] ++ d.toList) =
      some { id := (word32 o b0 b1 b2 b3).setWidth 11, dlc := n.setWidth 4, data := d } := by
  rw [payload_eq d]
  exact if_pos hn

/-- Settles O40: the two directions of the identifier word's law, and the length byte likewise. -/
theorem serializerRoundTrips : Obligations.SerializerRoundTrips := by
  constructor
  · intro o f hl
    obtain ⟨b0, b1, b2, b3, hw⟩ := orderedBytes_exists o (f.id.setWidth 32)
    have hlength : (f.dlc.setWidth 8).toNat ≤ 8 := by
      rwa [BitVec.toNat_setWidth_of_le (by decide)]
    rw [serialize_eq hw, deserialize_sixteen o b0 b1 b2 b3 f.data hlength,
      ← orderedBytes_eq_iff.mp hw, BitVec.setWidth_setWidth_of_le _ (by decide),
      BitVec.setWidth_setWidth_of_le _ (by decide), BitVec.setWidth_eq, BitVec.setWidth_eq]
  · intro o b0 b1 b2 b3 n d hn hid
    refine ⟨_, deserialize_sixteen o b0 b1 b2 b3 d hn, ?_⟩
    have hword : ((word32 o b0 b1 b2 b3).setWidth 11).setWidth 32 = word32 o b0 b1 b2 b3 := by
      apply BitVec.eq_of_toNat_eq
      rw [BitVec.toNat_setWidth, BitVec.toNat_setWidth]
      omega
    have hlength : (n.setWidth 4).setWidth 8 = n := by
      apply BitVec.eq_of_toNat_eq
      rw [BitVec.toNat_setWidth, BitVec.toNat_setWidth]
      omega
    rw [serialize_eq (orderedBytes_eq_iff.mpr hword), hlength]

end Sys2Proof.Machine
end

section
/-! SUPPORT. A read of the endpoint (41 R162, R163): the RECEIVE it presents, or the frame
dropped. -/

namespace Sys2Proof.Machine

variable {s : State} {ts : List Agent} {rest : List Request} {b : List Byte} {p : Params}

theorem Inbox.put_hrx (b : Inbox) (l : List Request) : b.put .hrx l = { b with hrx := l } := rfl

theorem present_hostRead {f : WireFrame} (h : deserialize p.hostByteOrder b = some f) :
    (Request.hostRead b).present p = .transaction (.hostReceive f.id f.dlc f.data) := by
  simp only [Request.present, presentFrame, h]

theorem present_hostRead_dropped (h : deserialize p.hostByteOrder b = none) :
    (Request.hostRead b).present p = .dropped b := by
  simp only [Request.present, presentFrame, h]

/-- In little order bits 10:8 of the identifier word are in byte 1, and bits 7:0 in byte 0. -/
theorem word32_little_ident (b0 b1 b2 b3 : Byte) :
    (word32 .little b0 b1 b2 b3).setWidth 11 = b1.extractLsb' 0 3 ++ b0 := by
  apply BitVec.eq_of_toNat_eq
  rw [word32, BitVec.toNat_setWidth, toNat_append_add, toNat_append_add, toNat_append_add,
    toNat_append_add, toNat_extract]
  omega

/-- Big order is little order with the bytes reversed. -/
theorem word32_big (b0 b1 b2 b3 : Byte) :
    word32 .big b0 b1 b2 b3 = word32 .little b3 b2 b1 b0 := rfl

/-- Settles O41: the bytes present a RECEIVE, which the inbound loop issues and which never
waits. -/
theorem readFramesAreReceived : Obligations.ReadFramesAreReceived := by
  intro s ts rest b0 b1 b2 b3 n p5 p6 p7 d hf hturn hreq hn
  have hdes := deserialize_sixteen (p5 := p5) (p6 := p6) (p7 := p7) s.cfg.hostByteOrder b0 b1 b2 b3
    d hn
  rw [step_of_enabled hf hturn hreq rfl (present_hostRead hdes) rfl, Inbox.put_hrx]
  generalize s.cfg.hostByteOrder = o
  cases o with
  | little => rw [word32_little_ident]; rfl
  | big => rw [word32_big, word32_little_ident]; rfl

/-- Fewer than sixteen bytes are no frame (41 R163). -/
theorem deserialize_of_fewer_bytes (o : ByteOrder) (h : b.length < 16) :
    deserialize o b = none := by
  unfold deserialize
  split
  · simp only [List.length_cons] at h
    omega
  · rfl

/-- Bytes with a length byte above 8 are no frame (41 R163). -/
theorem deserialize_of_length_above {n : Byte} (o : ByteOrder) (hb : b[4]? = some n)
    (hn : 8 < n.toNat) : deserialize o b = none := by
  unfold deserialize
  split
  · cases hb
    exact if_neg (Nat.not_le.mpr hn)
  · rfl

/-- The turn of the inbound loop with a frame the deserializer drops. -/
theorem step_of_dropped (hf : s.fault = none) (hturn : s.turns = .hrx :: ts)
    (hreq : s.inbox.of .hrx = .hostRead b :: rest)
    (hdes : deserialize s.cfg.hostByteOrder b = none) :
    step s = State.dropFrame { s with turns := ts, inbox := s.inbox.put .hrx rest } b := by
  rw [step_eq_serve hf hturn hreq]
  simp [serve, mayPresent, present_hostRead_dropped hdes, State.takeRequest, hturn, hreq]

/-- Settles O42: both kinds of bytes are no frame, and the bridge records the drop. -/
theorem badFramesAreDropped : Obligations.BadFramesAreDropped := by
  intro s ts rest b hf hb hturn hreq hbad
  have hdes : deserialize s.cfg.hostByteOrder b = none := by
    obtain hshort | ⟨-, n, hn, hlong⟩ := hbad
    · exact deserialize_of_fewer_bytes _ hshort
    · exact deserialize_of_length_above _ hn hlong
  rw [step_of_dropped hf hturn hreq hdes]
  exact hostRequest_of_ready hf hb _

end Sys2Proof.Machine
end

section
/-! SUPPORT. The causes of a raised fault (60 R180 to R183), the block that stands still once a fault
is recorded (60 R185), and the requests refused because of the agent that presents them (60 R193,
R194). -/

namespace Sys2Proof.Machine

variable {i : Instr} {s t : State} {a : Agent} {ts : List Agent} {q : Request} {rest : List Request}

/-! ### The causes of a fault -/

/-- The recorded index of a select of no mailbox is the 3-bit field N, zero-extended (log 22). -/
theorem pageMobnb_setWidth (v : Byte) : (pageMobnb v).setWidth 8 = 0#5 ++ v.extractLsb' 4 3 :=
  BitVec.setWidth_eq_append (by decide)

/-- The reason found after a fault was raised is the one it was raised with. -/
theorem faulted_reason {r r' : FaultReason} (h : (s.faulted r').fault = some r) : r = r' :=
  (Option.some.inj h).symm

/-- Settles O57: only the effects that raise a fault change `fault`, each with its cause and its
reason. -/
theorem faultsComeOnlyFromTheirCauses : Obligations.FaultsComeOnlyFromTheirCauses := by
  intro i s t r h hr
  obtain ⟨hf, htaken⟩ := exec_taken h
  have hraised : t.fault ≠ s.fault := by rw [hr, hf]; exact nofun
  cases htaken
  case selectFault v hv =>
    exact .inl ⟨v, rfl, hv, (faulted_reason hr).trans (congrArg _ (pageMobnb_setWidth v))⟩
  case sendFault m hm _ => exact .inr (.inl ⟨m, rfl, hm, faulted_reason hr⟩)
  case popFault m e q _ htake =>
    obtain ⟨older, younger, hq, -, hm, -⟩ := takeOldest_eq_some.mp htake
    have he : e ∈ s.txq := by simp [hq]
    exact .inr (.inr (.inl ⟨m, rfl, ⟨e, he, hm⟩, faulted_reason hr⟩))
  case disFault x l hl =>
    exact .inr (.inr (.inr ⟨x, l, hl, .inl ⟨rfl, faulted_reason hr⟩⟩))
  case txFault x l hl =>
    exact .inr (.inr (.inr ⟨x, l, hl, .inr (.inl ⟨rfl, faulted_reason hr⟩)⟩))
  case rxFault x l hl =>
    exact .inr (.inr (.inr ⟨x, l, hl, .inr (.inr (.inl ⟨rfl, faulted_reason hr⟩))⟩))
  case rxbFault x l hl =>
    exact .inr (.inr (.inr ⟨x, l, hl, .inr (.inr (.inr ⟨rfl, faulted_reason hr⟩))⟩))
  case tx => exact absurd (by rw [transmit_eq]) hraised
  case receive => exact absurd (by rw [receive_eq]) hraised
  all_goals exact absurd rfl hraised

/-! ### A faulted block (60 R185) -/

/-- The host requests check `fault` in `hostRequest`, every other instruction in `whenLive`
(60 R195). -/
theorem exec_of_faulted {r : FaultReason} (h : s.fault = some r) (i : Instr) :
    exec i s = .fault (.halted r) := by
  cases i with
  | hostSend | hostReceive | hostTxpop => exact hostRequest_of_some h _
  | _ => exact whenLive_of_some h _

/-- Settles O11: the check of `fault` comes first in a turn and in every transaction. -/
theorem faultedBlockHasNoStep : Obligations.FaultedBlockHasNoStep :=
  fun _ _ h => ⟨whenLive_of_some h _, exec_of_faulted h⟩

/-! ### A request from another agent (60 R193, R194) -/

/-- A word is not presented by an agent that does not issue its operation. -/
theorem mayPresent_word_of_ne {p : Params} {t : Word} {d : Payload}
    (h : decode p.resetTrigger.isSome t d = .ok i) (hne : agentOf i ≠ a) :
    mayPresent p a (.word t d) = false := by
  simp only [mayPresent, presentWord, h, beq_eq_false_iff_ne.mpr hne]

/-- A byte access is not presented by a host agent or the reset source. -/
theorem mayPresent_byteAccess_of_ne (p : Params)
    (h : ∃ addr v, q = .busWrite addr v ∨ q = .busRead addr) (hne : a ≠ .prog) :
    mayPresent p a q = false := by
  obtain ⟨addr, v, rfl | rfl⟩ := h <;> exact beq_eq_false_iff_ne.mpr hne

/-- Bytes of the endpoint are presented by the inbound loop only. -/
theorem mayPresent_hostRead_of_ne (p : Params) (b : List Byte) (hne : a ≠ .hrx) :
    mayPresent p a (.hostRead b) = false :=
  beq_eq_false_iff_ne.mpr hne

/-- The turn of an agent that may not present its oldest request. -/
theorem step_of_wrongAgent (hf : s.fault = none) (hturn : s.turns = a :: ts)
    (hreq : s.inbox.of a = q :: rest) (hmay : mayPresent s.cfg a q = false) :
    step s = .refused .wrongAgent := by
  rw [step_eq_serve hf hturn hreq]
  simp [serve, hmay]

/-- Settles O13: in each of the three cases the agent may not present the request. -/
theorem operationsComeFromTheirAgent : Obligations.OperationsComeFromTheirAgent := by
  intro s a ts q rest hf hturn hreq hwrong
  apply step_of_wrongAgent hf hturn hreq
  obtain ⟨t, d, i, rfl, hdec, hne⟩ | ⟨hbus, hne⟩ | ⟨⟨b, rfl⟩, hne⟩ := hwrong
  · exact mayPresent_word_of_ne hdec hne
  · exact mayPresent_byteAccess_of_ne _ hbus hne
  · exact mayPresent_hostRead_of_ne _ b hne

end Sys2Proof.Machine
end

section
/-! SUPPORT. The device reset (70 R210, R211), a RESET right after power-on (R212), and the
transactions that move the shadow index (R223). -/

namespace Sys2Proof.Machine

variable {i : Instr} {s t : State}

/-! ### The device reset -/

theorem exec_reset (hf : s.fault = none) : exec .reset s = .next s.deviceReset :=
  whenLive_of_none hf _

theorem exec_wrResetReg (hf : s.fault = none) (hr : s.cfg.resetTrigger.isSome = true) (v : Byte) :
    exec (.wrResetReg v) s = .next s.deviceReset := by
  rw [exec, execWrResetReg, whenLive_of_none hf, if_pos hr]

theorem pageAinc_eq_iff : pageAinc s.page = aincOn s.cfg ↔ AincEnabled s := by
  rw [← aincEn_iff, State.aincEn, beq_iff_eq]

/-- A device reset makes `ainc_en` hold, whatever the polarity. -/
theorem deviceReset_aincEnabled (s : State) : AincEnabled s.deviceReset :=
  pageAinc_eq_iff.mp (pageAinc_setAinc ..)

/-- Writing the AINC bit keeps bits 7:4 of PAGE. -/
theorem setAinc_upper (v : Byte) (a : BitVec 1) :
    (setAinc v a).extractLsb' 4 4 = v.extractLsb' 4 4 := by
  apply BitVec.eq_of_toNat_eq
  rw [toNat_extract, toNat_extract, setAinc, pageByte_toNat, pageSpare_toNat, pageMobnb_toNat,
    pageIndx_toNat]
  omega

/-- Settles O43: both transactions are the one effect `State.deviceReset`. -/
theorem deviceResetRestoresAutoIncrement : Obligations.DeviceResetRestoresAutoIncrement := by
  intro s hf
  exact ⟨by decide,
    ⟨s.deviceReset, exec_reset hf, deviceReset_aincEnabled s, setAinc_upper .., pageIndx_setAinc ..,
      rfl⟩,
    fun v => ⟨hasKindSel_of_writeWord (sel := 7) rfl,
      fun hr => ⟨s.deviceReset, exec_wrResetReg hf hr v, exec_reset hf⟩⟩⟩

/-- Writing the AINC bit that stands there leaves PAGE as it is. -/
theorem setAinc_pageAinc (v : Byte) : setAinc v (pageAinc v) = v := pageByte_fields v

/-- Where `ainc_en` holds, a device reset changes nothing but the history. -/
theorem deviceReset_of_aincEnabled (h : AincEnabled s) :
    s.deviceReset = { s with hist := s.hist ++ [.deviceReset] } := by
  rw [deviceReset_eq, ← pageAinc_eq_iff.mpr h, setAinc_pageAinc]

theorem powerOn_fault (p : Params) : (State.powerOn p none).fault = none := ite_self none

/-- Settles O44: `ainc_en` holds at power-on, so the reset has nothing to restore. -/
theorem resetAfterPowerOnChangesNothing : Obligations.ResetAfterPowerOnChangesNothing := by
  intro p
  rw [exec_reset (powerOn_fault p), deviceReset_of_aincEnabled (powerOn_aincEnabled p none)]
  rfl

/-! ### The shadow index -/

/-- A data write that moves the index moves it by one modulo 8. -/
theorem storeData_index_change {v : Byte}
    (hne : pageIndx (s.storeData v).page ≠ pageIndx s.page) :
    (pageIndx (s.storeData v).page).toNat = ((pageIndx s.page).toNat + 1) % 8 := by
  have hindex := storeData_index s v
  split at hindex
  · exact hindex
  · exact absurd (BitVec.eq_of_toNat_eq hindex) hne

/-- A select loads the stored index of the mailbox it makes current. -/
theorem select_index (s : State) (v : Byte) (n : MobId) :
    pageIndx (s.select v n).page = ((s.select v n).mailbox (s.select v n).cur).idx :=
  pageIndx_pageByte ..

theorem Taken.index_change (h : Taken i s t) (hne : pageIndx t.page ≠ pageIndx s.page) :
    (∃ v, i = .wrMsg v ∧ (pageIndx t.page).toNat = ((pageIndx s.page).toNat + 1) % 8) ∨
      ∃ v, i = .wrPage v ∧ pageIndx t.page = (t.mailbox t.cur).idx := by
  cases h
  case msg v => exact .inl ⟨v, rfl, storeData_index_change hne⟩
  case select v n _ => exact .inr ⟨v, rfl, select_index s v n⟩
  case resetReg | reset => exact absurd (pageIndx_setAinc ..) hne
  case tx => rw [transmit_eq] at hne; exact absurd rfl hne
  case receive => rw [receive_eq] at hne; exact absurd rfl hne
  all_goals exact absurd rfl hne

/-- Settles O54: of all effects, only a data write and a mailbox select move the index. -/
theorem indexChangesOnlyByDataWriteOrLoad : Obligations.IndexChangesOnlyByDataWriteOrLoad :=
  fun _ _ _ h hne => (exec_taken h).2.index_change hne

end Sys2Proof.Machine
end
